-- ==== Sys2Proof/Word.lean ====
section
/-! DEFINITION. Bytes, words of four bytes, blocks of sixteen bytes, and their exclusive or (00_scope.md R8, 20_memory.md R35). -/

namespace Sys2Proof

/-- A byte (R8). -/
abbrev Byte := BitVec 8

/-- The value of a 32-bit register of the host's window (10_state.md R17). -/
abbrev Reg32 := BitVec 32

/-- A word: a sequence of exactly four bytes, `b0` its first byte (R8). -/
structure Word where
  b0 : Byte
  b1 : Byte
  b2 : Byte
  b3 : Byte
deriving DecidableEq, Repr

/-- A block: sixteen bytes as four words, word `c` being bytes `4c` to `4c+3`.
It is also the 4×4 State of a round, word `c` its column `c` (42_block_cipher.md R100). -/
structure Block where
  w0 : Word
  w1 : Word
  w2 : Word
  w3 : Word
deriving DecidableEq, Repr

/-- Exclusive or of two words, byte by byte (R8). -/
def Word.xor (a b : Word) : Word :=
  ⟨a.b0 ^^^ b.b0, a.b1 ^^^ b.b1, a.b2 ^^^ b.b2, a.b3 ^^^ b.b3⟩

/-- Exclusive or of two blocks, byte by byte (R8). -/
def Block.xor (a b : Block) : Block :=
  ⟨a.w0.xor b.w0, a.w1.xor b.w1, a.w2.xor b.w2, a.w3.xor b.w3⟩

/-- The word of four zero bytes. -/
def Word.zero : Word := ⟨0, 0, 0, 0⟩

/-- The block of sixteen zero bytes. -/
def Block.zero : Block := ⟨.zero, .zero, .zero, .zero⟩

/-- The four bytes of a word in stream order. -/
def Word.bytes (w : Word) : List Byte := [w.b0, w.b1, w.b2, w.b3]

/-- The sixteen bytes of a block in stream order. -/
def Block.bytes (b : Block) : List Byte :=
  b.w0.bytes ++ b.w1.bytes ++ b.w2.bytes ++ b.w3.bytes

end Sys2Proof
end

