-- ==== Sys2Proof/Config.lean ====
section
/-! DEFINITION. The implementation's parameters (00_scope.md R6) and the free values the spec calls unspecified (00_scope.md R8, 93_implementation_defined.md Part 1). -/

namespace Sys2Proof

/-- The parameter `ZERO_UNPAD`: what `unpad` removes under policy Zero (43_padding.md R134). -/
inductive ZeroUnpad where
  /-- every trailing zero byte -/
  | stripAll
  /-- at most 15 trailing zero bytes -/
  | stripLtBlock
  /-- nothing -/
  | nothing
deriving DecidableEq, Repr

/-- The implementation's parameters (R6). `bufExtra` counts the 16-byte blocks of IBUF beyond the
first, so that `BUFCAP` is a multiple of 16 with 16 ≤ BUFCAP ≤ 65520 by its form. -/
structure Config where
  bufExtra : Fin 4095
  zeroUnpad : ZeroUnpad
deriving DecidableEq, Repr

/-- `BUFCAP`, the capacity of IBUF in bytes (R6). -/
def Config.bufcap (c : Config) : Nat := 16 * (c.bufExtra.val + 1)

/-- The spec's defaults: `BUFCAP = 4096` and `ZERO_UNPAD = strip_all` (R6). -/
def Config.initial : Config := ⟨255, .stripAll⟩

/-- Which piece of state, or which answer to the host, a free value stands in. -/
inductive FreeSite where
  | key | iv | din | dout | prev | rks | ibuf | obuf | bus
deriving DecidableEq, Repr

/-- FREE VALUE (log entry 4): byte `k` of the unspecified content of `site` at draw number `draw`.
It has no body, so nothing proved of the model rests on a value of it (R8 "unspecified"). -/
opaque Config.free (draw : Nat) (site : FreeSite) (k : Nat) : Byte

end Sys2Proof
end

