-- ==== Sys2Proof/Syntax.lean ====
section
/-! DEFINITION. The commands: one constructor for each row of spec/opcode_table.json (30_encoding.md R53), the two qualifier sets (R51) and the fields of the one format C (R50). -/

namespace Sys2Proof

/-- The block mode of a command (R51). -/
inductive Mode where
  | ecb | cbc
deriving DecidableEq, Repr

/-- The padding policy of a command (R51). -/
inductive PadPolicy where
  | pkcs7 | zero | none
deriving DecidableEq, Repr

/-- The 29 legal commands (R53). -/
inductive Instr where
  | kexp
  | encb
  | decb
  | minitEcb
  | minitCbc
  | mencEcb
  | mencCbc
  | mdecEcb
  | mdecCbc
  | padPkcs7
  | padZero
  | padNone
  | unpadPkcs7
  | unpadZero
  | unpadNone
  | sencEcbPkcs7
  | sencCbcPkcs7
  | sencEcbZero
  | sencCbcZero
  | sencEcbNone
  | sencCbcNone
  | sdecEcbPkcs7
  | sdecCbcPkcs7
  | sdecEcbZero
  | sdecCbcZero
  | sdecEcbNone
  | sdecCbcNone
  | clrerr
  | rst
deriving DecidableEq, Repr

/-- The fields of a command word in format C (R50). -/
structure CommandFields where
  opc : BitVec 8
  mode : BitVec 2
  padp : BitVec 2
  rsvd : BitVec 20
deriving DecidableEq, Repr

end Sys2Proof
end

