-- ==== Sys2Proof/WellFormed.lean ====
section
/-! DEFINITION. Which fields make a legal command word: the conditions of 30_encoding.md R55, one check each. A command itself has no operand (R51), so what can be ill-formed is its word. -/

namespace Sys2Proof

/-- `RSVD` is 0 (R50, R55). -/
def CommandFields.reservedClear (f : CommandFields) : Bool := f.rsvd == 0

/-- `OPC` is one of the assigned codes 0x01 to 0x0A, 0x0E, 0x0F (R52, R55). -/
def CommandFields.opcAssigned (f : CommandFields) : Bool :=
  (1 ≤ f.opc.toNat && f.opc.toNat ≤ 0x0A) || f.opc == 0x0E || f.opc == 0x0F

/-- `MODE` is 0 or 1 (R51). -/
def CommandFields.modeLegal (f : CommandFields) : Bool := f.mode.toNat ≤ 1

/-- `PADP` is 0, 1 or 2 (R51). -/
def CommandFields.padpLegal (f : CommandFields) : Bool := f.padp.toNat ≤ 2

/-- `MODE` is 0 in a command that takes no mode: only `MINIT`, `MENC`, `MDEC`, `SENC`, `SDEC` take one (R52, R55). -/
def CommandFields.modeAllowed (f : CommandFields) : Bool :=
  f.mode == 0 || f.opc == 0x04 || f.opc == 0x05 || f.opc == 0x06 || f.opc == 0x09 || f.opc == 0x0A

/-- `PADP` is 0 in a command that takes no policy: only `PAD`, `UNPAD`, `SENC`, `SDEC` take one (R52, R55). -/
def CommandFields.padpAllowed (f : CommandFields) : Bool :=
  f.padp == 0 || f.opc == 0x07 || f.opc == 0x08 || f.opc == 0x09 || f.opc == 0x0A

/-- No condition of R55 makes the word illegal. -/
def CommandFields.wellFormed (f : CommandFields) : Bool :=
  f.reservedClear && f.opcAssigned && f.modeLegal && f.padpLegal && f.modeAllowed && f.padpAllowed

end Sys2Proof
end

