-- ==== Sys2Proof/Decode.lean ====
section
/-! DEFINITION. The decoder, total on 32-bit values and naming why it rejects a word, and the encoder (30_encoding.md R50 to R56). -/

namespace Sys2Proof

/-- Why a word is no command: the conditions of R55, in its order. -/
inductive Illegal where
  | reservedBits
  | unassignedOpc
  | reservedMode
  | reservedPadp
  | takesNoMode
  | takesNoPadp
  /-- Never answered by `decode`: every word no condition of R55 names is in the list of R53. -/
  | notListed
deriving DecidableEq, Repr

/-- The fields of a command word (R50). -/
def fieldsOf (c : Reg32) : CommandFields :=
  ⟨c.extractLsb' 0 8, c.extractLsb' 8 2, c.extractLsb' 10 2, c.extractLsb' 12 20⟩

/-- The command word with the given fields (R50). -/
def wordOfFields (f : CommandFields) : Reg32 := f.rsvd ++ f.padp ++ f.mode ++ f.opc

/-- The code of a mode (R51). -/
def Mode.code : Mode → BitVec 2
  | .ecb => 0
  | .cbc => 1

/-- The code of a padding policy (R51). -/
def PadPolicy.code : PadPolicy → BitVec 2
  | .pkcs7 => 0
  | .zero => 1
  | .none => 2

/-- The complete list of legal command words (R53). -/
def legalWords : List (Reg32 × Instr) :=
  [ (0x00000001, .kexp), (0x00000002, .encb), (0x00000003, .decb),
    (0x00000004, .minitEcb), (0x00000104, .minitCbc),
    (0x00000005, .mencEcb), (0x00000105, .mencCbc),
    (0x00000006, .mdecEcb), (0x00000106, .mdecCbc),
    (0x00000007, .padPkcs7), (0x00000407, .padZero), (0x00000807, .padNone),
    (0x00000008, .unpadPkcs7), (0x00000408, .unpadZero), (0x00000808, .unpadNone) ] ++
  [ (0x00000009, .sencEcbPkcs7), (0x00000109, .sencCbcPkcs7),
    (0x00000409, .sencEcbZero), (0x00000509, .sencCbcZero),
    (0x00000809, .sencEcbNone), (0x00000909, .sencCbcNone),
    (0x0000000A, .sdecEcbPkcs7), (0x0000010A, .sdecCbcPkcs7),
    (0x0000040A, .sdecEcbZero), (0x0000050A, .sdecCbcZero),
    (0x0000080A, .sdecEcbNone), (0x0000090A, .sdecCbcNone),
    (0x0000000E, .clrerr), (0x0000000F, .rst) ]

/-- The first condition of R55 that makes a word illegal. -/
def illegalReason (f : CommandFields) : Illegal :=
  if !f.reservedClear then .reservedBits
  else if !f.opcAssigned then .unassignedOpc
  else if !f.modeLegal then .reservedMode
  else if !f.padpLegal then .reservedPadp
  else if !f.modeAllowed then .takesNoMode
  else if !f.padpAllowed then .takesNoPadp
  else .notListed

/-- `decode` of R54: one of the 29 words of R53, or illegal for a named reason (R55). -/
def decode (c : Reg32) : Except Illegal Instr :=
  match legalWords.lookup c with
  | some i => .ok i
  | none => .error (illegalReason (fieldsOf c))

/-- The fields of a command's word, from the opcode map and the codes of its qualifiers (R51, R52). -/
def Instr.fields : Instr → CommandFields
  | .kexp => ⟨0x01, 0, 0, 0⟩
  | .encb => ⟨0x02, 0, 0, 0⟩
  | .decb => ⟨0x03, 0, 0, 0⟩
  | .minitEcb => ⟨0x04, Mode.code .ecb, 0, 0⟩
  | .minitCbc => ⟨0x04, Mode.code .cbc, 0, 0⟩
  | .mencEcb => ⟨0x05, Mode.code .ecb, 0, 0⟩
  | .mencCbc => ⟨0x05, Mode.code .cbc, 0, 0⟩
  | .mdecEcb => ⟨0x06, Mode.code .ecb, 0, 0⟩
  | .mdecCbc => ⟨0x06, Mode.code .cbc, 0, 0⟩
  | .padPkcs7 => ⟨0x07, 0, PadPolicy.code .pkcs7, 0⟩
  | .padZero => ⟨0x07, 0, PadPolicy.code .zero, 0⟩
  | .padNone => ⟨0x07, 0, PadPolicy.code .none, 0⟩
  | .unpadPkcs7 => ⟨0x08, 0, PadPolicy.code .pkcs7, 0⟩
  | .unpadZero => ⟨0x08, 0, PadPolicy.code .zero, 0⟩
  | .unpadNone => ⟨0x08, 0, PadPolicy.code .none, 0⟩
  | .sencEcbPkcs7 => ⟨0x09, Mode.code .ecb, PadPolicy.code .pkcs7, 0⟩
  | .sencCbcPkcs7 => ⟨0x09, Mode.code .cbc, PadPolicy.code .pkcs7, 0⟩
  | .sencEcbZero => ⟨0x09, Mode.code .ecb, PadPolicy.code .zero, 0⟩
  | .sencCbcZero => ⟨0x09, Mode.code .cbc, PadPolicy.code .zero, 0⟩
  | .sencEcbNone => ⟨0x09, Mode.code .ecb, PadPolicy.code .none, 0⟩
  | .sencCbcNone => ⟨0x09, Mode.code .cbc, PadPolicy.code .none, 0⟩
  | .sdecEcbPkcs7 => ⟨0x0A, Mode.code .ecb, PadPolicy.code .pkcs7, 0⟩
  | .sdecCbcPkcs7 => ⟨0x0A, Mode.code .cbc, PadPolicy.code .pkcs7, 0⟩
  | .sdecEcbZero => ⟨0x0A, Mode.code .ecb, PadPolicy.code .zero, 0⟩
  | .sdecCbcZero => ⟨0x0A, Mode.code .cbc, PadPolicy.code .zero, 0⟩
  | .sdecEcbNone => ⟨0x0A, Mode.code .ecb, PadPolicy.code .none, 0⟩
  | .sdecCbcNone => ⟨0x0A, Mode.code .cbc, PadPolicy.code .none, 0⟩
  | .clrerr => ⟨0x0E, 0, 0, 0⟩
  | .rst => ⟨0x0F, 0, 0, 0⟩

/-- The word of a command, from its fields (R50 to R52). -/
def encode (i : Instr) : Reg32 := wordOfFields i.fields

/-- A command is well-formed when its fields are (R55). -/
def Instr.wellFormed (i : Instr) : Bool := i.fields.wellFormed

/-- The command the decoder reads from a word of spec/opcode_table.json, of which the table gives
`nbits` bits; the bits above them are 0. -/
def decodeTableWord (nbits w : Nat) : Option Instr :=
  match decode (BitVec.ofNat 32 (w % 2 ^ nbits)) with
  | .ok i => some i
  | .error _ => none

end Sys2Proof
end

