-- ==== Sys2Proof/Machine/State.lean ====
section
/-! DEFINITION. The state of the machine as plain data, the reasons a step can stop, and the state after reset (10_state.md). -/

namespace Sys2Proof.Machine

/-- Reasons to stop with a fault: there is none. The spec gives every command word in every state,
and every move of the host, a defined next state (30_encoding.md R54; 93: "Nothing in this spec is
*stuck*"); its errors are recorded in `STATUS.ERR` and the machine goes on (60_exceptions.md R195). -/
inductive Fault
deriving DecidableEq, Repr

/-- Reasons to refuse an instruction. -/
inductive Refusal where
  /-- Raised by an arm of `exec` whose command has no meaning yet. Safe: the model stops. No arm raises it. -/
  | notModelled (mnemonic : String)
deriving DecidableEq, Repr

/-- The error kinds of 60_exceptions.md R190, `noError` being code 0. -/
inductive ErrKind where
  | noError
  | invalidKeySize
  | invalidIVSize
  | missingIV
  | unalignedData
  | invalidPadding
  | ioError
  | illegalCommand
deriving DecidableEq, Repr

/-- What a byte of a buffer reads as that is not listed. -/
inductive Filler where
  /-- The model's content at `State.reset` (log entry 2). -/
  | zeros
  /-- Unspecified content, left by draw number `draw` of free values (log entry 3). -/
  | free (draw : Nat) (site : FreeSite)
deriving DecidableEq, Repr

/-- A buffer's bytes: the listed cells, by rising byte index, and what every other byte reads as. -/
structure Mem where
  cells : List Host.Cell
  filler : Filler
deriving DecidableEq, Repr

/-- One move of the host (92_eei_decisions.md D28): `width` is the number of bytes of the access,
`off` the byte offset in the block's window (00_scope.md R6: 20 bits). -/
inductive HostMove where
  | read (width : Nat) (off : BitVec 20)
  | write (width : Nat) (off : BitVec 20) (v : Reg32)
  /-- The reset event of 70_reset_and_hazards.md R220. -/
  | reset
deriving DecidableEq, Repr

/-- The state of the machine: everything 10_state.md names, then the parameters of 00_scope.md R6,
then the model's own fields (`host`, `rdata`, `free`). -/
structure State where
  /-- `KEY[0..32)`, word `j` holding `KEY[4j..4j+4)` (R10, R17). -/
  key : Vector Word 8
  /-- `IV[0..16)` (R10, R12). -/
  iv : Block
  /-- `DIN[0..16)` (R10, R13). -/
  din : Block
  /-- `DOUT[0..16)` (R10, R13). -/
  dout : Block
  /-- `PREV[0..16)`, the chaining value (R10, R14). -/
  prev : Block
  /-- `STATUS.ERR` (R16, R19, 60_exceptions.md R190). -/
  err : ErrKind
  /-- `STATUS.RKVALID` (R16, R19). -/
  rkvalid : Bool
  /-- `STATUS.CHAINV` (R14, R16, R19). -/
  chainv : Bool
  /-- `STATUS.NK` (R16, R19). -/
  nk : BitVec 4
  /-- `STATUS.NR` (R16, R19). -/
  nr : BitVec 4
  /-- `KLEN` (R20). -/
  klen : BitVec 8
  /-- `IVLEN` (R21). -/
  ivlen : BitVec 8
  /-- `INLEN` (R22). -/
  inlen : Reg32
  /-- `OUTLEN` (R23). -/
  outlen : Reg32
  /-- `ERRCMD` (R24). -/
  errcmd : Reg32
  /-- `RKS[0..60)`, the round-key register file (R25). -/
  rks : Vector Word 60
  /-- IBUF (R27, R28). -/
  ibuf : Mem
  /-- OBUF (R27, R29). -/
  obuf : Mem
  /-- The implementation's parameters, which no step changes (00_scope.md R6; log entry 5). -/
  cfg : Config
  /-- The host's moves not yet taken, oldest first (20_memory.md R43; log entry 6). -/
  host : List HostMove
  /-- What the host's last read returned (log entry 7). -/
  rdata : Reg32
  /-- The number of the next draw of free values (log entry 4). -/
  free : Nat
deriving DecidableEq, Repr

/-- The state right after reset (R31): the control fields are 0; what R31 leaves unspecified holds
the zeros of log entries 1 and 2; the parameters are the spec's defaults. -/
def State.reset : State where
  key := Vector.replicate 8 Word.zero
  iv := .zero
  din := .zero
  dout := .zero
  prev := .zero
  err := .noError
  rkvalid := false
  chainv := false
  nk := 0
  nr := 0
  klen := 0
  ivlen := 0
  inlen := 0
  outlen := 0
  errcmd := 0
  rks := Vector.replicate 60 Word.zero
  ibuf := ⟨[], .zeros⟩
  obuf := ⟨[], .zeros⟩
  cfg := Config.initial
  host := []
  rdata := 0
  free := 0

end Sys2Proof.Machine
end

