-- ==== Sys2Proof/Machine/Ops.lean ====
section
/-! DEFINITION. The named operations on the buffers, the draws of free values, raising an error and acknowledging it, and the reset of every register (10_state.md, 20_memory.md, 60_exceptions.md). -/

namespace Sys2Proof.Machine

/-! ### Buffers -/

/-- The byte listed at an index, if one is. -/
def cellAt (a : Nat) : List Host.Cell → Option Byte
  | [] => none
  | (x, v) :: rest => if a = x then some v else cellAt a rest

/-- List byte `b` at index `a`, in place of what was listed there. -/
def insertCell (a : Nat) (b : Byte) : List Host.Cell → List Host.Cell
  | [] => [(a, b)]
  | (x, v) :: rest =>
    if a < x then (a, b) :: (x, v) :: rest
    else if a = x then (a, b) :: rest
    else (x, v) :: insertCell a b rest

/-- List nothing at index `a`. -/
def eraseCell (a : Nat) : List Host.Cell → List Host.Cell
  | [] => []
  | (x, v) :: rest => if a = x then rest else (x, v) :: eraseCell a rest

/-- What a byte that is not listed reads as. -/
def Filler.byte : Filler → Nat → Byte
  | .zeros, _ => 0
  | .free draw site, a => Config.free draw site a

/-- Read one byte of a buffer. -/
def Mem.read (m : Mem) (a : Nat) : Byte :=
  match cellAt a m.cells with
  | some v => v
  | none => m.filler.byte a

/-- Write one byte of a buffer, keeping its canonical form: the zero that an unlisted byte reads as
at `State.reset` is never listed (log entry 2); beside unspecified content every written byte is
listed, since no one can tell whether it equals the free value (log entry 3). -/
def Mem.write (m : Mem) (a : Nat) (b : Byte) : Mem :=
  if m.filler = .zeros ∧ b = 0 then { m with cells := eraseCell a m.cells }
  else { m with cells := insertCell a b m.cells }

/-- `MemRead(buf, a, n)`: `n` bytes from index `a` on (00_scope.md R8). -/
def Mem.readBytes (m : Mem) (a : Nat) : Nat → List Byte
  | 0 => []
  | n + 1 => m.read a :: Mem.readBytes m (a + 1) n

/-- `MemWrite(buf, a, n, v)`: the bytes of `v` from index `a` on (00_scope.md R8). -/
def Mem.writeBytes (m : Mem) (a : Nat) : List Byte → Mem
  | [] => m
  | b :: rest => Mem.writeBytes (m.write a b) (a + 1) rest

/-- A buffer every byte of which is unspecified. -/
def Mem.unspecified (draw : Nat) (site : FreeSite) : Mem := ⟨[], .free draw site⟩

/-- The indices of a list of cells rise strictly and are at least `lo`. -/
def risingFrom (lo : Nat) : List Host.Cell → Bool
  | [] => true
  | (x, _) :: rest => decide (lo ≤ x) && risingFrom (x + 1) rest

/-- The canonical form of a buffer (log entries 2 and 3). -/
def Mem.wf (m : Mem) : Bool :=
  risingFrom 0 m.cells && (decide (m.filler ≠ .zeros) || m.cells.all fun c => c.2 != 0)

/-! ### Free values -/

/-- Word `j` of the unspecified content of a site. -/
def freeWord (draw : Nat) (site : FreeSite) (j : Nat) : Word :=
  ⟨Config.free draw site (4 * j), Config.free draw site (4 * j + 1),
    Config.free draw site (4 * j + 2), Config.free draw site (4 * j + 3)⟩

/-- The unspecified content of a 16-byte site. -/
def freeBlock (draw : Nat) (site : FreeSite) : Block :=
  ⟨freeWord draw site 0, freeWord draw site 1, freeWord draw site 2, freeWord draw site 3⟩

/-- A register file whose words are those of `w`, and unspecified beyond it (10_state.md R25). -/
def rksFrom (draw : Nat) (w : List Word) : Vector Word 60 :=
  Vector.ofFn fun j : Fin 60 => if j.val < w.length then w.getD j.val .zero else freeWord draw .rks j.val

/-- Every byte of OBUF becomes unspecified (60_exceptions.md R196). -/
def State.forgetOutput (s : State) : State :=
  { s with obuf := .unspecified s.free .obuf, free := s.free + 1 }

/-- `PREV` becomes unspecified (60_exceptions.md R196). -/
def State.forgetPrev (s : State) : State :=
  { s with prev := freeBlock s.free .prev, free := s.free + 1 }

/-! ### Results of the commands -/

/-- `DOUT <- b` (10_state.md R13). -/
def State.setDout (s : State) (b : Block) : State := { s with dout := b }

/-- `PREV <- b` (10_state.md R14). -/
def State.setPrev (s : State) (b : Block) : State := { s with prev := b }

/-- The result of a buffer command: `MemWrite(OBUF, 0, len(out), out)` and `OUTLEN <- len(out)`.
Bytes of OBUF at and above OUTLEN are unspecified (10_state.md R23, R29). -/
def State.setOutput (s : State) (out : List Byte) : State :=
  { s with
    obuf := (Mem.unspecified s.free .obuf).writeBytes 0 out
    outlen := BitVec.ofNat 32 out.length
    free := s.free + 1 }

/-! ### Errors -/

/-- The code an error kind writes to `STATUS.ERR` (60_exceptions.md R190). -/
def ErrKind.code : ErrKind → BitVec 4
  | .noError => 0
  | .invalidKeySize => 1
  | .invalidIVSize => 2
  | .missingIV => 3
  | .unalignedData => 4
  | .invalidPadding => 5
  | .ioError => 6
  | .illegalCommand => 7

/-- `PAD`, `UNPAD`, `SENC` and `SDEC`: the buffer commands (10_state.md R22, R23). -/
def isBuffer (i : Instr) : Bool :=
  match i.fields.opc.toNat with
  | 0x07 => true
  | 0x08 => true
  | 0x09 => true
  | 0x0A => true
  | _ => false

/-- `raise E` while executing the word `c` (60_exceptions.md R195); `buffer` says whether the command
is a buffer command. It is taken from the state before the command for a setup error (log entry 8). -/
def State.raise (s : State) (c : Reg32) (buffer : Bool) (e : ErrKind) : State :=
  { s with err := e, errcmd := c, outlen := if buffer then 0 else s.outlen }

/-- `raise E` while executing the command `i`, whose word is `encode i`. -/
def State.raiseIn (s : State) (i : Instr) (e : ErrKind) : State :=
  s.raise (encode i) (isBuffer i) e

/-- A data error of `PAD` or `UNPAD`: R195, and every byte of OBUF unspecified (R196). -/
def State.padDataError (s : State) (i : Instr) (e : ErrKind) : State :=
  s.forgetOutput.raiseIn i e

/-- A data error of a stream command in mode `m`, from the state `stream_start` left (so that in CBC
the IV is consumed): R195, `CHAINV <- 0`, OBUF unspecified, and in CBC `PREV` unspecified (R196). -/
def State.streamDataError (s : State) (i : Instr) (m : Mode) (e : ErrKind) : State :=
  let t := match m with
    | .ecb => s.forgetOutput
    | .cbc => s.forgetOutput.forgetPrev
  { t with chainv := false }.raiseIn i e

/-- The return from the error state: `ERR` and `ERRCMD` cleared, nothing restored
(46_system_commands.md R185, 60_exceptions.md R198). -/
def State.acknowledge (s : State) : State := { s with err := .noError, errcmd := 0 }

/-! ### Reset -/

/-- Every piece of state at its reset value (10_state.md R31): the effect of `RST`
(46_system_commands.md R186) and of the reset event (70_reset_and_hazards.md R220). What R31 leaves
unspecified is a free value here (log entry 3). The parameters are not state of the core, and the
host's moves and its last read are the host's. -/
def State.resetAll (s : State) : State :=
  { s with
    key := Vector.ofFn fun j : Fin 8 => freeWord s.free .key j.val
    iv := freeBlock s.free .iv
    din := freeBlock s.free .din
    dout := freeBlock s.free .dout
    prev := freeBlock s.free .prev
    err := .noError
    rkvalid := false
    chainv := false
    nk := 0
    nr := 0
    klen := 0
    ivlen := 0
    inlen := 0
    outlen := 0
    errcmd := 0
    rks := rksFrom s.free []
    ibuf := .unspecified s.free .ibuf
    obuf := .unspecified s.free .obuf
    free := s.free + 1 }

end Sys2Proof.Machine
end

