-- ==== Sys2Proof/Machine/Flags.lean ====
section
/-! DEFINITION. The STATUS register and the updates of its flags (10_state.md R11, R14, R16, R19). -/

namespace Sys2Proof.Machine

/-- `STATUS` as the host reads it: `NR` 15:12, `NK` 11:8, `CHAINV` 5, `RKVALID` 4, `ERR` 3:0, the
reserved bits 0 (10_state.md R19). -/
def State.status (s : State) : Reg32 :=
  (0 : BitVec 16) ++ s.nr ++ s.nk ++ (0 : BitVec 2) ++ BitVec.ofBool s.chainv ++
    BitVec.ofBool s.rkvalid ++ s.err.code

/-- The schedule `w` of a key of `KLEN` bytes becomes valid: `RKS`, `NK`, `NR`, `RKVALID` as
41_key_schedule.md R85 writes them, the words above the schedule unspecified (10_state.md R25). -/
def State.setSchedule (s : State) (w : List Word) : State :=
  { s with
    rks := rksFrom s.free w
    nk := BitVec.ofNat 4 (s.klen.toNat / 4)
    nr := BitVec.ofNat 4 (s.klen.toNat / 4 + 6)
    rkvalid := true
    free := s.free + 1 }

/-- The schedule becomes invalid, which leaves all of `RKS` unspecified (10_state.md R11, R25). -/
def State.dropSchedule (s : State) : State :=
  { s with rks := rksFrom s.free [], nk := 0, nr := 0, rkvalid := false, free := s.free + 1 }

/-- A CBC chain opens: `PREV <- IV`, `IVLEN <- 0`, `CHAINV <- 1` (44_mode_controller.md R151). -/
def State.openChain (s : State) : State := { s with prev := s.iv, ivlen := 0, chainv := true }

/-- `CHAINV <- 0` (44_mode_controller.md R151, 45_stream_codec.md R170, R171). -/
def State.closeChain (s : State) : State := { s with chainv := false }

end Sys2Proof.Machine
end

