-- ==== Sys2Proof/Machine/Operands.lean ====
section
/-! DEFINITION. The operand forms: the packing of bytes into register words and the fixed registers and buffers a command reads (20_memory.md R35 to R37, 30_encoding.md R51). -/

namespace Sys2Proof.Machine

/-- The 32-bit value of a word, `b0` in bits 31:24 (20_memory.md R36). -/
def packWord (w : Word) : Reg32 := w.b0 ++ w.b1 ++ w.b2 ++ w.b3

/-- The word whose 32-bit value is `v` (20_memory.md R36). -/
def unpackWord (v : Reg32) : Word :=
  ⟨v.extractLsb' 24 8, v.extractLsb' 16 8, v.extractLsb' 8 8, v.extractLsb' 0 8⟩

/-- Word `j` of a block. -/
def blockWord (b : Block) (j : Nat) : Word :=
  match j with
  | 0 => b.w0
  | 1 => b.w1
  | 2 => b.w2
  | _ => b.w3

/-- A block with word `j` replaced. -/
def setBlockWord (b : Block) (j : Nat) (w : Word) : Block :=
  match j with
  | 0 => { b with w0 := w }
  | 1 => { b with w1 := w }
  | 2 => { b with w2 := w }
  | _ => { b with w3 := w }

/-- The word of the first four bytes of a sequence. -/
def wordOfBytes (l : List Byte) : Word := ⟨l.getD 0 0, l.getD 1 0, l.getD 2 0, l.getD 3 0⟩

/-- The block of the first sixteen bytes of a sequence. -/
def blockOfBytes (l : List Byte) : Block :=
  ⟨wordOfBytes l, wordOfBytes (l.drop 4), wordOfBytes (l.drop 8), wordOfBytes (l.drop 12)⟩

/-- `KEY[0..KLEN)` (10_state.md R10, R20). -/
def State.keyBytes (s : State) : List Byte := (s.key.toList.flatMap Word.bytes).take s.klen.toNat

/-- `RKS[0 .. 4*(NR+1))` (42_block_cipher.md R113). -/
def State.schedule (s : State) : List Word := s.rks.toList.take (4 * (s.nr.toNat + 1))

/-- `MemRead(IBUF, 0, INLEN)` (43_padding.md R136). -/
def State.input (s : State) : List Byte := s.ibuf.readBytes 0 s.inlen.toNat

/-- `INLEN > BUFCAP`, the cause of `IOError` (60_exceptions.md R191). -/
def State.inputTooLong (s : State) : Bool := decide (s.cfg.bufcap < s.inlen.toNat)

end Sys2Proof.Machine
end

