-- ==== Sys2Proof/Machine/Gf.lean ====
section
/-! DEFINITION. The GF(2^8) multiplier (40_gf_and_tables.md R60, R61, R63). -/

namespace Sys2Proof.Machine

/-- Doubling in GF(2^8) (R60). -/
def xtime (a : Byte) : Byte := (a <<< 1) ^^^ (if a.getLsbD 7 then 0x1B else 0x00)

/-- The loop of R61 with `n` iterations left, at bit `8 - n` of `b`. -/
def gmulLoop (a b p : Byte) : Nat → Byte
  | 0 => p
  | n + 1 => gmulLoop (xtime a) (b >>> 1) (if b.getLsbD 0 then p ^^^ a else p) n

/-- Multiplication in GF(2^8) modulo 0x11B: eight iterations whatever the operands are (R61). -/
def gmul (a b : Byte) : Byte := gmulLoop a b 0x00 8

/-- The square in GF(2^8). -/
def gsquare (a : Byte) : Byte := gmul a a

/-- The inverse in GF(2^8), 0 for 0 (R63): `a` to the power 254. -/
def ginv (a : Byte) : Byte :=
  let a2 := gsquare a
  let a4 := gsquare a2
  let a8 := gsquare a4
  let a16 := gsquare a8
  let a32 := gsquare a16
  let a64 := gsquare a32
  let a128 := gsquare a64
  gmul a2 (gmul a4 (gmul a8 (gmul a16 (gmul a32 (gmul a64 a128)))))

end Sys2Proof.Machine
end

