-- ==== Sys2Proof/Machine/KeySchedule.lean ====
section
/-! DEFINITION. The key scheduler and the command KEXP (41_key_schedule.md R80 to R87). -/

namespace Sys2Proof.Machine

/-- Every byte of a word moves one place toward the front (R80). -/
def rotword (w : Word) : Word := ⟨w.b1, w.b2, w.b3, w.b0⟩

/-- Each byte of a word through SBOX (R81). -/
def subword (w : Word) : Word := ⟨sbox w.b0, sbox w.b1, sbox w.b2, sbox w.b3⟩

/-- The first `n` words of a byte sequence (R82). -/
def wordsOfBytes (l : List Byte) : Nat → List Word
  | 0 => []
  | n + 1 => wordOfBytes l :: wordsOfBytes (l.drop 4) n

/-- The transform of `w[i-1]` at word `i` of an expansion with `nk` key words (R83; 90_conflicts.md C1). -/
def expandTransform (nk i : Nat) (t : Word) : Word :=
  if i % nk = 0 then
    let u := subword (rotword t)
    { u with b0 := u.b0 ^^^ rcon (i / nk) }
  else if nk = 8 ∧ i % nk = 4 then subword t
  else t

/-- Word `i` of the expansion, from the words before it (R83). -/
def nextWord (nk i : Nat) (w : List Word) : Word :=
  (w.getD (i - nk) .zero).xor (expandTransform nk i (w.getD (i - 1) .zero))

/-- The words `w`, of which there are `i`, continued by `n` more (R83, R87 d). -/
def expandFrom (nk i : Nat) (w : List Word) : Nat → List Word
  | 0 => w
  | n + 1 => expandFrom nk (i + 1) (w ++ [nextWord nk i w]) n

/-- `len(key) ∈ {16, 24, 32}` (R83). -/
def keyLengthLegal (n : Nat) : Bool := n == 16 || n == 24 || n == 32

/-- `expand(key)` (R83): the `4*(Nr+1)` words of the schedule, or `InvalidKeySize`. -/
def expand (key : List Byte) : Except ErrKind (List Word) :=
  if keyLengthLegal key.length then
    let nk := key.length / 4
    let nr := nk + 6
    .ok (expandFrom nk nk (wordsOfBytes key nk) (4 * (nr + 1) - nk))
  else .error .invalidKeySize

/-- `roundkey(w, r)` (R84). -/
def roundKey (w : List Word) (r : Nat) : Block :=
  ⟨w.getD (4 * r) .zero, w.getD (4 * r + 1) .zero, w.getD (4 * r + 2) .zero, w.getD (4 * r + 3) .zero⟩

/-- The steps of `KEXP` (R85). The check of `KLEN` is that of `expand`, `KEY[0..KLEN)` having `KLEN`
bytes when `KLEN` is at most 32. -/
def State.expandKey (s : State) : Except ErrKind State :=
  if keyLengthLegal s.klen.toNat then
    match expand s.keyBytes with
    | .ok w => .ok (s.setSchedule w)
    | .error e => .error e
  else .error .invalidKeySize

/-- `ensure_schedule()` (R86). -/
def State.ensureSchedule (s : State) : Except ErrKind State :=
  if s.rkvalid then .ok s else s.expandKey

/-- The end of a command that raises only setup errors: its state, or the error raised on the state
before the command (60_exceptions.md R195; log entry 8). -/
def State.finish (s : State) (i : Instr) (r : Except ErrKind State) : Host.Outcome State Fault Refusal :=
  match r with
  | .ok t => .next t
  | .error e => .next (s.raiseIn i e)

/-- `KEXP` (R85). -/
def execKexp (s : State) : Host.Outcome State Fault Refusal := s.finish .kexp s.expandKey

end Sys2Proof.Machine
end

