-- ==== Sys2Proof/Machine/BlockCipher.lean ====
section
/-! DEFINITION. The round transforms, the single-block cipher and the commands ENCB and DECB (42_block_cipher.md R100 to R115). The State matrix is a block: `S[r][c]` is byte `r` of word `c`, so loading and storing (R100, R101) are the identity. -/

namespace Sys2Proof.Machine

/-- AddRoundKey (R102). -/
def addRoundKey (s rk : Block) : Block := s.xor rk

/-- SubBytes (R103): each column is four bytes through SBOX. -/
def subBytes (s : Block) : Block := ⟨subword s.w0, subword s.w1, subword s.w2, subword s.w3⟩

/-- ShiftRows (R104): row `r` rotated left by `r`. -/
def shiftRows (s : Block) : Block :=
  ⟨⟨s.w0.b0, s.w1.b1, s.w2.b2, s.w3.b3⟩, ⟨s.w1.b0, s.w2.b1, s.w3.b2, s.w0.b3⟩,
    ⟨s.w2.b0, s.w3.b1, s.w0.b2, s.w1.b3⟩, ⟨s.w3.b0, s.w0.b1, s.w1.b2, s.w2.b3⟩⟩

/-- One row of a matrix with coefficients `m0 m1 m2 m3` times a column (R105). -/
def mixRow (m0 m1 m2 m3 : Byte) (c : Word) : Byte :=
  gmul m0 c.b0 ^^^ gmul m1 c.b1 ^^^ gmul m2 c.b2 ^^^ gmul m3 c.b3

/-- A circulant matrix with first row `m0 m1 m2 m3` times a column (R105, R109). -/
def mixColumn (m0 m1 m2 m3 : Byte) (c : Word) : Word :=
  ⟨mixRow m0 m1 m2 m3 c, mixRow m3 m0 m1 m2 c, mixRow m2 m3 m0 m1 c, mixRow m1 m2 m3 m0 c⟩

/-- MixColumns (R105): the matrix with first row 02 03 01 01 on each column. -/
def mixColumns (s : Block) : Block :=
  ⟨mixColumn 0x02 0x03 0x01 0x01 s.w0, mixColumn 0x02 0x03 0x01 0x01 s.w1,
    mixColumn 0x02 0x03 0x01 0x01 s.w2, mixColumn 0x02 0x03 0x01 0x01 s.w3⟩

/-- Each byte of a word through INVSBOX. -/
def invSubword (w : Word) : Word := ⟨invSbox w.b0, invSbox w.b1, invSbox w.b2, invSbox w.b3⟩

/-- InvSubBytes (R107). -/
def invSubBytes (s : Block) : Block :=
  ⟨invSubword s.w0, invSubword s.w1, invSubword s.w2, invSubword s.w3⟩

/-- InvShiftRows (R108): row `r` rotated right by `r`. -/
def invShiftRows (s : Block) : Block :=
  ⟨⟨s.w0.b0, s.w3.b1, s.w2.b2, s.w1.b3⟩, ⟨s.w1.b0, s.w0.b1, s.w3.b2, s.w2.b3⟩,
    ⟨s.w2.b0, s.w1.b1, s.w0.b2, s.w3.b3⟩, ⟨s.w3.b0, s.w2.b1, s.w1.b2, s.w0.b3⟩⟩

/-- InvMixColumns (R109): the matrix with first row 0E 0B 0D 09 on each column. -/
def invMixColumns (s : Block) : Block :=
  ⟨mixColumn 0x0E 0x0B 0x0D 0x09 s.w0, mixColumn 0x0E 0x0B 0x0D 0x09 s.w1,
    mixColumn 0x0E 0x0B 0x0D 0x09 s.w2, mixColumn 0x0E 0x0B 0x0D 0x09 s.w3⟩

/-- `Nr` of a schedule of `4*(Nr+1)` words (R110). -/
def roundsOf (w : List Word) : Nat := w.length / 4 - 1

/-- One round `r` of encryption, 1 ≤ r < Nr (R110). -/
def encRound (w : List Word) (r : Nat) (s : Block) : Block :=
  addRoundKey (mixColumns (shiftRows (subBytes s))) (roundKey w r)

/-- The rounds 1 to `n` of encryption, in this order (R110, R112). -/
def encRounds (w : List Word) : Nat → Block → Block
  | 0, s => s
  | n + 1, s => encRound w (n + 1) (encRounds w n s)

/-- `encryptBlock(plain, w)` (R110): the final round has no MixColumns. -/
def encryptBlock (plain : Block) (w : List Word) : Block :=
  let nr := roundsOf w
  addRoundKey (shiftRows (subBytes (encRounds w (nr - 1) (addRoundKey plain (roundKey w 0))))) (roundKey w nr)

/-- One round `r` of decryption (R111). -/
def decRound (w : List Word) (r : Nat) (s : Block) : Block :=
  invSubBytes (invShiftRows (invMixColumns (addRoundKey s (roundKey w r))))

/-- The rounds `n` down to 1 of decryption, in this order (R111, R112). -/
def decRounds (w : List Word) : Nat → Block → Block
  | 0, s => s
  | n + 1, s => decRounds w n (decRound w (n + 1) s)

/-- `decryptBlock(cipher, w)` (R111). -/
def decryptBlock (cipher : Block) (w : List Word) : Block :=
  let nr := roundsOf w
  addRoundKey (decRounds w (nr - 1) (invSubBytes (invShiftRows (addRoundKey cipher (roundKey w nr))))) (roundKey w 0)

/-- `DOUT <- f(DIN, RKS)` after `ensure_schedule` (R113, R114, 44_mode_controller.md R154, R156). -/
def State.blockCommand (s : State) (f : Block → List Word → Block) : Except ErrKind State :=
  match s.ensureSchedule with
  | .ok t => .ok (t.setDout (f t.din t.schedule))
  | .error e => .error e

/-- `ENCB` (R113). -/
def execEncb (s : State) : Host.Outcome State Fault Refusal := s.finish .encb (s.blockCommand encryptBlock)

/-- `DECB` (R114). -/
def execDecb (s : State) : Host.Outcome State Fault Refusal := s.finish .decb (s.blockCommand decryptBlock)

end Sys2Proof.Machine
end

