-- ==== Sys2Proof/Machine/Padding.lean ====
section
/-! DEFINITION. The padding engine and the six commands PAD and UNPAD (43_padding.md R130 to R142). -/

namespace Sys2Proof.Machine

/-- `pad(data, policy)` (R130, R131, R132). -/
def pad (p : PadPolicy) (data : List Byte) : Except ErrKind (List Byte) :=
  match p with
  | .pkcs7 =>
    let n := 16 - data.length % 16
    .ok (data ++ List.replicate n (BitVec.ofNat 8 n))
  | .zero => .ok (data ++ List.replicate ((16 - data.length % 16) % 16) 0x00)
  | .none => if data.length % 16 = 0 then .ok data else .error .unalignedData

/-- `unpad(data, PKCS7)` (R133). -/
def unpadPkcs7 (data : List Byte) : Except ErrKind (List Byte) :=
  if data.length = 0 then .error .invalidPadding
  else
    let last := data.getD (data.length - 1) 0
    let n := last.toNat
    if n < 1 ∨ 16 < n then .error .invalidPadding
    else if data.length < n then .error .invalidPadding
    else if (data.drop (data.length - n)).all (· == last) then .ok (data.take (data.length - n))
    else .error .invalidPadding

/-- A sequence without its first zero bytes, of which at most `limit` are removed. -/
def dropZeros : Nat → List Byte → List Byte
  | 0, l => l
  | _ + 1, [] => []
  | n + 1, b :: rest => if b = 0x00 then dropZeros n rest else b :: rest

/-- A sequence without its trailing zero bytes, of which at most `limit` are removed (R134). -/
def stripZeros (limit : Nat) (data : List Byte) : List Byte := (dropZeros limit data.reverse).reverse

/-- `unpad(data, Zero)` under each value of `ZERO_UNPAD` (R134). -/
def unpadZeros (z : ZeroUnpad) (data : List Byte) : List Byte :=
  match z with
  | .stripAll => stripZeros data.length data
  | .stripLtBlock => stripZeros 15 data
  | .nothing => data

/-- `unpad(data, policy)` (R133, R134, R135). -/
def unpad (z : ZeroUnpad) (p : PadPolicy) (data : List Byte) : Except ErrKind (List Byte) :=
  match p with
  | .pkcs7 => unpadPkcs7 data
  | .zero => .ok (unpadZeros z data)
  | .none => .ok data

/-- A `PAD` or `UNPAD` command with function `f` (R136, R138, R139). -/
def State.padCommand (s : State) (i : Instr) (f : List Byte → Except ErrKind (List Byte)) : State :=
  if s.inputTooLong then s.raiseIn i .ioError
  else
    match f s.input with
    | .ok out => s.setOutput out
    | .error e => s.padDataError i e

/-- `PAD.PKCS7` (R136). -/
def execPadPkcs7 (s : State) : Host.Outcome State Fault Refusal := .next (s.padCommand .padPkcs7 (pad .pkcs7))

/-- `PAD.ZERO` (R137). -/
def execPadZero (s : State) : Host.Outcome State Fault Refusal := .next (s.padCommand .padZero (pad .zero))

/-- `PAD.NONE` (R138). -/
def execPadNone (s : State) : Host.Outcome State Fault Refusal := .next (s.padCommand .padNone (pad .none))

/-- `UNPAD.PKCS7` (R139). -/
def execUnpadPkcs7 (s : State) : Host.Outcome State Fault Refusal :=
  .next (s.padCommand .unpadPkcs7 (unpad s.cfg.zeroUnpad .pkcs7))

/-- `UNPAD.ZERO` (R140). -/
def execUnpadZero (s : State) : Host.Outcome State Fault Refusal :=
  .next (s.padCommand .unpadZero (unpad s.cfg.zeroUnpad .zero))

/-- `UNPAD.NONE` (R141). -/
def execUnpadNone (s : State) : Host.Outcome State Fault Refusal :=
  .next (s.padCommand .unpadNone (unpad s.cfg.zeroUnpad .none))

end Sys2Proof.Machine
end

