-- ==== Sys2Proof/Machine/Mode.lean ====
section
/-! DEFINITION. The block mode controller and the commands MINIT, MENC and MDEC (44_mode_controller.md R150 to R158). -/

namespace Sys2Proof.Machine

/-- `cbc_enc(B, prev, w)`: the output and the new `prev` (R150). -/
def cbcEnc (b prev : Block) (w : List Word) : Block × Block :=
  let c := encryptBlock (b.xor prev) w
  (c, c)

/-- `cbc_dec(B, prev, w)`: the output and the new `prev` (R150). -/
def cbcDec (b prev : Block) (w : List Word) : Block × Block := ((decryptBlock b w).xor prev, b)

/-- `mode_enc` of 45_stream_codec.md: ECB carries no state, so `prev` stays (R150). -/
def modeEnc (m : Mode) (b prev : Block) (w : List Word) : Block × Block :=
  match m with
  | .ecb => (encryptBlock b w, prev)
  | .cbc => cbcEnc b prev w

/-- `mode_dec` of 45_stream_codec.md (R150). -/
def modeDec (m : Mode) (b prev : Block) (w : List Word) : Block × Block :=
  match m with
  | .ecb => (decryptBlock b w, prev)
  | .cbc => cbcDec b prev w

/-- `stream_start(m)` (R151). -/
def State.streamStart (s : State) (m : Mode) : Except ErrKind State :=
  match s.ensureSchedule with
  | .error e => .error e
  | .ok t =>
    match m with
    | .ecb => .ok t.closeChain
    | .cbc =>
      if t.ivlen = 0 then .error .missingIV
      else if t.ivlen ≠ 16 then .error .invalidIVSize
      else .ok t.openChain

/-- `(DOUT, PREV) <- f(DIN, PREV, RKS)` in an open chain (R155, R157). -/
def State.chainCommand (s : State) (f : Block → Block → List Word → Block × Block) : Except ErrKind State :=
  match s.ensureSchedule with
  | .error e => .error e
  | .ok t =>
    if t.chainv then
      let r := f t.din t.prev t.schedule
      .ok ((t.setDout r.1).setPrev r.2)
    else .error .missingIV

/-- `MINIT.ECB` (R152). -/
def execMinitEcb (s : State) : Host.Outcome State Fault Refusal := s.finish .minitEcb (s.streamStart .ecb)

/-- `MINIT.CBC` (R153). -/
def execMinitCbc (s : State) : Host.Outcome State Fault Refusal := s.finish .minitCbc (s.streamStart .cbc)

/-- `MENC.ECB` (R154). -/
def execMencEcb (s : State) : Host.Outcome State Fault Refusal := s.finish .mencEcb (s.blockCommand encryptBlock)

/-- `MENC.CBC` (R155). -/
def execMencCbc (s : State) : Host.Outcome State Fault Refusal := s.finish .mencCbc (s.chainCommand cbcEnc)

/-- `MDEC.ECB` (R156). -/
def execMdecEcb (s : State) : Host.Outcome State Fault Refusal := s.finish .mdecEcb (s.blockCommand decryptBlock)

/-- `MDEC.CBC` (R157). -/
def execMdecCbc (s : State) : Host.Outcome State Fault Refusal := s.finish .mdecCbc (s.chainCommand cbcDec)

end Sys2Proof.Machine
end

