-- ==== Sys2Proof/Machine/Stream.lean ====
section
/-! DEFINITION. The stream sequencer and the twelve commands SENC and SDEC (45_stream_codec.md R170 to R174). -/

namespace Sys2Proof.Machine

/-- The first `n` blocks of a byte sequence, block `i` its bytes `16i` to `16i+15` (R172). -/
def blocksOfBytes (l : List Byte) : Nat → List Block
  | 0 => []
  | n + 1 => blockOfBytes l :: blocksOfBytes (l.drop 16) n

/-- The bytes of a sequence of blocks, in order. -/
def bytesOfBlocks (l : List Block) : List Byte := l.flatMap Block.bytes

/-- A mode function on each block in order, handing `prev` on (R170, R171; 20_memory.md R48). -/
def runBlocks (f : Block → Block → Block × Block) : List Block → Block → List Block × Block
  | [], prev => ([], prev)
  | b :: rest, prev =>
    let r := f b prev
    let t := runBlocks f rest r.2
    (r.1 :: t.1, t.2)

/-- Encryption of a sequence of blocks in a mode from a chaining value: the blocks and the last chaining value. -/
def encBlocks (m : Mode) (w : List Word) (l : List Block) (prev : Block) : List Block × Block :=
  runBlocks (fun b p => modeEnc m b p w) l prev

/-- Decryption of a sequence of blocks in a mode from a chaining value: the blocks and the last chaining value. -/
def decBlocks (m : Mode) (w : List Word) (l : List Block) (prev : Block) : List Block × Block :=
  runBlocks (fun b p => modeDec m b p w) l prev

/-- The successful end of a stream: the output, the last chaining value, the chain closed (R170, R171). -/
def State.endStream (s : State) (out : List Byte) (prev : Block) : State :=
  ((s.setOutput out).setPrev prev).closeChain

/-- The stream of `SENC` after its setup: the full chunks, then the padded final chunk (R170). -/
def State.sencStream (t : State) (i : Instr) (m : Mode) (p : PadPolicy) : State :=
  let data := t.input
  let q := t.inlen.toNat / 16
  let full := encBlocks m t.schedule (blocksOfBytes data q) t.prev
  match pad p (data.drop (16 * q)) with
  | .error e => t.streamDataError i m e
  | .ok chunk =>
    let last := encBlocks m t.schedule (blocksOfBytes chunk (chunk.length / 16)) full.2
    t.endStream (bytesOfBlocks (full.1 ++ last.1)) last.2

/-- The stream of `SDEC` after its setup: every full chunk, the check of the length, then the padding
removed (R171). -/
def State.sdecStream (t : State) (i : Instr) (m : Mode) (p : PadPolicy) : State :=
  let q := t.inlen.toNat / 16
  let full := decBlocks m t.schedule (blocksOfBytes t.input q) t.prev
  if t.inlen.toNat % 16 ≠ 0 then t.streamDataError i m .unalignedData
  else
    match unpad t.cfg.zeroUnpad p (bytesOfBlocks full.1) with
    | .error e => t.streamDataError i m e
    | .ok out => t.endStream out full.2

/-- The setup of a stream command, then its stream (R170, R171): a setup error is raised on the state
before the command (60_exceptions.md R195). -/
def State.streamCommand (s : State) (i : Instr) (m : Mode) (body : State → State) : State :=
  if s.inputTooLong then s.raiseIn i .ioError
  else
    match s.streamStart m with
    | .error e => s.raiseIn i e
    | .ok t => body t

/-- `SENC.m.p` (R170). -/
def State.senc (s : State) (i : Instr) (m : Mode) (p : PadPolicy) : State :=
  s.streamCommand i m fun t => t.sencStream i m p

/-- `SDEC.m.p` (R171). -/
def State.sdec (s : State) (i : Instr) (m : Mode) (p : PadPolicy) : State :=
  s.streamCommand i m fun t => t.sdecStream i m p

/-- `SENC.ECB.PKCS7` (R170). -/
def execSencEcbPkcs7 (s : State) : Host.Outcome State Fault Refusal := .next (s.senc .sencEcbPkcs7 .ecb .pkcs7)

/-- `SENC.ECB.ZERO` (R170). -/
def execSencEcbZero (s : State) : Host.Outcome State Fault Refusal := .next (s.senc .sencEcbZero .ecb .zero)

/-- `SENC.ECB.NONE` (R170). -/
def execSencEcbNone (s : State) : Host.Outcome State Fault Refusal := .next (s.senc .sencEcbNone .ecb .none)

/-- `SENC.CBC.PKCS7` (R170). -/
def execSencCbcPkcs7 (s : State) : Host.Outcome State Fault Refusal := .next (s.senc .sencCbcPkcs7 .cbc .pkcs7)

/-- `SENC.CBC.ZERO` (R170). -/
def execSencCbcZero (s : State) : Host.Outcome State Fault Refusal := .next (s.senc .sencCbcZero .cbc .zero)

/-- `SENC.CBC.NONE` (R170). -/
def execSencCbcNone (s : State) : Host.Outcome State Fault Refusal := .next (s.senc .sencCbcNone .cbc .none)

/-- `SDEC.ECB.PKCS7` (R171). -/
def execSdecEcbPkcs7 (s : State) : Host.Outcome State Fault Refusal := .next (s.sdec .sdecEcbPkcs7 .ecb .pkcs7)

/-- `SDEC.ECB.ZERO` (R171). -/
def execSdecEcbZero (s : State) : Host.Outcome State Fault Refusal := .next (s.sdec .sdecEcbZero .ecb .zero)

/-- `SDEC.ECB.NONE` (R171). -/
def execSdecEcbNone (s : State) : Host.Outcome State Fault Refusal := .next (s.sdec .sdecEcbNone .ecb .none)

/-- `SDEC.CBC.PKCS7` (R171). -/
def execSdecCbcPkcs7 (s : State) : Host.Outcome State Fault Refusal := .next (s.sdec .sdecCbcPkcs7 .cbc .pkcs7)

/-- `SDEC.CBC.ZERO` (R171). -/
def execSdecCbcZero (s : State) : Host.Outcome State Fault Refusal := .next (s.sdec .sdecCbcZero .cbc .zero)

/-- `SDEC.CBC.NONE` (R171). -/
def execSdecCbcNone (s : State) : Host.Outcome State Fault Refusal := .next (s.sdec .sdecCbcNone .cbc .none)

end Sys2Proof.Machine
end

