-- ==== Sys2Proof/Machine/System.lean ====
section
/-! DEFINITION. The system commands CLRERR and RST (46_system_commands.md R185, R186). -/

namespace Sys2Proof.Machine

/-- `CLRERR` (R185). -/
def execClrerr (s : State) : Host.Outcome State Fault Refusal := .next s.acknowledge

/-- `RST` (R186). -/
def execRst (s : State) : Host.Outcome State Fault Refusal := .next s.resetAll

end Sys2Proof.Machine
end

