-- ==== Sys2Proof/Machine/Dispatch.lean ====
section
/-! DEFINITION. exec: one arm for each command, a direct call of its meaning. -/

namespace Sys2Proof.Machine

def exec (i : Instr) (s : State) : Host.Outcome State Fault Refusal :=
  match i with
  | .kexp => Sys2Proof.Machine.execKexp s
  | .encb => Sys2Proof.Machine.execEncb s
  | .decb => Sys2Proof.Machine.execDecb s
  | .minitEcb => Sys2Proof.Machine.execMinitEcb s
  | .minitCbc => Sys2Proof.Machine.execMinitCbc s
  | .mencEcb => Sys2Proof.Machine.execMencEcb s
  | .mencCbc => Sys2Proof.Machine.execMencCbc s
  | .mdecEcb => Sys2Proof.Machine.execMdecEcb s
  | .mdecCbc => Sys2Proof.Machine.execMdecCbc s
  | .padPkcs7 => Sys2Proof.Machine.execPadPkcs7 s
  | .padZero => Sys2Proof.Machine.execPadZero s
  | .padNone => Sys2Proof.Machine.execPadNone s
  | .unpadPkcs7 => Sys2Proof.Machine.execUnpadPkcs7 s
  | .unpadZero => Sys2Proof.Machine.execUnpadZero s
  | .unpadNone => Sys2Proof.Machine.execUnpadNone s
  | .sencEcbPkcs7 => Sys2Proof.Machine.execSencEcbPkcs7 s
  | .sencCbcPkcs7 => Sys2Proof.Machine.execSencCbcPkcs7 s
  | .sencEcbZero => Sys2Proof.Machine.execSencEcbZero s
  | .sencCbcZero => Sys2Proof.Machine.execSencCbcZero s
  | .sencEcbNone => Sys2Proof.Machine.execSencEcbNone s
  | .sencCbcNone => Sys2Proof.Machine.execSencCbcNone s
  | .sdecEcbPkcs7 => Sys2Proof.Machine.execSdecEcbPkcs7 s
  | .sdecCbcPkcs7 => Sys2Proof.Machine.execSdecCbcPkcs7 s
  | .sdecEcbZero => Sys2Proof.Machine.execSdecEcbZero s
  | .sdecCbcZero => Sys2Proof.Machine.execSdecCbcZero s
  | .sdecEcbNone => Sys2Proof.Machine.execSdecEcbNone s
  | .sdecCbcNone => Sys2Proof.Machine.execSdecCbcNone s
  | .clrerr => Sys2Proof.Machine.execClrerr s
  | .rst => Sys2Proof.Machine.execRst s

end Sys2Proof.Machine
end

