-- ==== Sys2Proof/Machine/HostPort.lean ====
section
/-! DEFINITION. The host's window on the machine: the register map, host reads and writes, the write of CMD that executes a command, and one move of the host (10_state.md R17 to R37, 30_encoding.md R54). -/

namespace Sys2Proof.Machine

/-- What an offset of the register window selects (10_state.md R17). -/
inductive Port where
  | cmd | status | klen | ivlen | inlen | outlen | errcmd
  | key (j : Fin 8)
  | iv (j : Fin 4)
  | din (j : Fin 4)
  | dout (j : Fin 4)
  | prev (j : Fin 4)
  | rks (j : Fin 60)
  /-- The word of IBUF at byte index `k`. -/
  | ibuf (k : Nat)
  /-- The word of OBUF at byte index `k`. -/
  | obuf (k : Nat)
  /-- A refused access: a reserved offset, beyond a buffer's end, misaligned, or of another width (R34, 20_memory.md R38). -/
  | refused
deriving DecidableEq, Repr

/-- The register map at an aligned byte offset (10_state.md R17, 20_memory.md R41). -/
def portAt (bufcap a : Nat) : Port :=
  if a = 0x000 then .cmd
  else if a = 0x004 then .status
  else if a = 0x008 then .klen
  else if a = 0x00C then .ivlen
  else if a = 0x010 then .inlen
  else if a = 0x014 then .outlen
  else if a = 0x018 then .errcmd
  else if 0x020 ≤ a ∧ a ≤ 0x03C then .key (Fin.ofNat 8 ((a - 0x020) / 4))
  else if 0x040 ≤ a ∧ a ≤ 0x04C then .iv (Fin.ofNat 4 ((a - 0x040) / 4))
  else if 0x050 ≤ a ∧ a ≤ 0x05C then .din (Fin.ofNat 4 ((a - 0x050) / 4))
  else if 0x060 ≤ a ∧ a ≤ 0x06C then .dout (Fin.ofNat 4 ((a - 0x060) / 4))
  else if 0x070 ≤ a ∧ a ≤ 0x07C then .prev (Fin.ofNat 4 ((a - 0x070) / 4))
  else if 0x100 ≤ a ∧ a ≤ 0x1EC then .rks (Fin.ofNat 60 ((a - 0x100) / 4))
  else if 0x10000 ≤ a ∧ a ≤ 0x10000 + bufcap - 4 then .ibuf (a - 0x10000)
  else if 0x20000 ≤ a ∧ a ≤ 0x20000 + bufcap + 12 then .obuf (a - 0x20000)
  else .refused

/-- What an access of `width` bytes at an offset selects: only one aligned 32-bit word is admitted (20_memory.md R38). -/
def portOf (bufcap width : Nat) (off : BitVec 20) : Port :=
  if width = 4 ∧ off.toNat % 4 = 0 then portAt bufcap off.toNat else .refused

/-- Byte `k` of OBUF as the host reads it: at and above OUTLEN unspecified (10_state.md R29,
20_memory.md R37; log entry 9). -/
def State.obufByte (s : State) (k : Nat) : Byte :=
  if k < s.outlen.toNat then s.obuf.read k else Config.free s.free .bus (k % 4)

/-- Word `j` of RKS as the host reads it: unspecified above the schedule and while RKVALID = 0
(10_state.md R25; log entry 9). -/
def State.rksWord (s : State) (j : Fin 60) : Word :=
  if s.rkvalid ∧ j.val < 4 * (s.nr.toNat + 1) then s.rks[j] else freeWord s.free .bus 0

/-- The value a host read returns (10_state.md R17 to R25, R34; 20_memory.md R36). -/
def State.portRead (s : State) (p : Port) : Reg32 :=
  match p with
  | .cmd => 0
  | .status => s.status
  | .klen => s.klen.setWidth 32
  | .ivlen => s.ivlen.setWidth 32
  | .inlen => s.inlen
  | .outlen => s.outlen
  | .errcmd => s.errcmd
  | .key j => packWord s.key[j]
  | .iv j => packWord (blockWord s.iv j.val)
  | .din j => packWord (blockWord s.din j.val)
  | .dout j => packWord (blockWord s.dout j.val)
  | .prev j => packWord (blockWord s.prev j.val)
  | .rks j => packWord (s.rksWord j)
  | .ibuf k => packWord ⟨s.ibuf.read k, s.ibuf.read (k + 1), s.ibuf.read (k + 2), s.ibuf.read (k + 3)⟩
  | .obuf k => packWord ⟨s.obufByte k, s.obufByte (k + 1), s.obufByte (k + 2), s.obufByte (k + 3)⟩
  | .refused => packWord (freeWord s.free .bus 0)

/-- A host write of anything but `CMD`: `KEY` and `KLEN` drop the schedule, `IV`, `DIN`, `IVLEN`,
`INLEN` and IBUF store the value, everything else ignores it (10_state.md R11, R20 to R22, R32 to R34;
20_memory.md R37). -/
def State.portWrite (s : State) (p : Port) (v : Reg32) : State :=
  match p with
  | .klen => { s.dropSchedule with klen := v.extractLsb' 0 8 }
  | .ivlen => { s with ivlen := v.extractLsb' 0 8 }
  | .inlen => { s with inlen := v }
  | .key j => { s.dropSchedule with key := s.key.set j.val (unpackWord v) }
  | .iv j => { s with iv := setBlockWord s.iv j.val (unpackWord v) }
  | .din j => { s with din := setBlockWord s.din j.val (unpackWord v) }
  | .ibuf k => { s with ibuf := s.ibuf.writeBytes k (unpackWord v).bytes }
  | .cmd | .status | .outlen | .errcmd | .dout _ | .prev _ | .rks _ | .obuf _ | .refused => s

/-- The dispatch of a host write of `c` to `CMD` (30_encoding.md R54; 60_exceptions.md R197). -/
def cmdWrite (c : Reg32) (s : State) : Host.Outcome State Fault Refusal :=
  if s.err ≠ .noError then
    match decode c with
    | .ok .clrerr => exec .clrerr s
    | .ok .rst => exec .rst s
    | _ => .next s
  else
    match decode c with
    | .ok i => exec i s
    | .error _ => .next (s.raise c false .illegalCommand)

/-- A host write (10_state.md R17, R32 to R34). -/
def hostWrite (width : Nat) (off : BitVec 20) (v : Reg32) (s : State) : Host.Outcome State Fault Refusal :=
  match portOf s.cfg.bufcap width off with
  | .cmd => cmdWrite v s
  | p => .next (s.portWrite p v)

/-- A host read: it changes no state of the core (10_state.md R32); the value goes to the model's
`rdata`, and the model's counter of free values advances (log entries 4 and 7). -/
def State.hostRead (s : State) (width : Nat) (off : BitVec 20) : State :=
  { s with rdata := s.portRead (portOf s.cfg.bufcap width off), free := s.free + 1 }

/-- One move of the host (92_eei_decisions.md D28). -/
def hostMove (a : HostMove) (s : State) : Host.Outcome State Fault Refusal :=
  match a with
  | .read width off => .next (s.hostRead width off)
  | .write width off v => hostWrite width off v s
  | .reset => .next s.resetAll

/-- The oldest move the host has pending takes effect; with none pending nothing changes
(20_memory.md R43, 60_exceptions.md R193; log entry 6). -/
def hostStep (s : State) : Host.Outcome State Fault Refusal :=
  match s.host with
  | [] => .next s
  | a :: rest => hostMove a { s with host := rest }

/-- The host's write of a command word of which `nbits` bits are given to `CMD` (10_state.md R17, R18). -/
def commandMove (nbits w : Nat) : HostMove := .write 4 0x00000 (BitVec.ofNat 32 (w % 2 ^ nbits))

end Sys2Proof.Machine
end

