-- ==== Sys2Proof/Machine/Step.lean ====
section
/-! DEFINITION. One step of the machine: the host's next move (20_memory.md R43). The machine has no program counter and fetches nothing (10_state.md R15): a command comes by the host's write to CMD. -/

namespace Sys2Proof.Machine

/-- One step: the oldest pending move of the host takes effect (R43). -/
def step (s : State) : Host.Outcome State Fault Refusal := hostStep s

/-- The state `s` in which the host's very next move writes the given command word to `CMD` (log entry 10). -/
def State.withFetchWord (s : State) (nbits w : Nat) : State :=
  { s with host := commandMove nbits w :: s.host }

end Sys2Proof.Machine
end

