-- ==== Sys2Proof/Safety.lean ====
section
/-! DEFINITION. What counts as a safe run, when a command can run, and the invariants of the machine, in the terms the statements use. -/

namespace Sys2Proof.Machine

/-! ### Outcomes -/

/-- The machine goes on: it neither faults nor refuses (93_implementation_defined.md: "Nothing in this spec is *stuck*"). -/
def GoesOn (o : Host.Outcome State Fault Refusal) : Prop := ∃ t, o = .next t

/-! ### When a command can run -/

/-- `ensure_schedule` does not raise: the schedule is valid, or `KLEN` is 16, 24 or 32 (41_key_schedule.md R85, R86). -/
def State.KeyReady (s : State) : Prop := s.rkvalid = true ∨ keyLengthLegal s.klen.toNat = true

/-- A stream can start in mode `m` (44_mode_controller.md R151). -/
def State.StartReady (s : State) (m : Mode) : Prop := s.KeyReady ∧ (m = .cbc → s.ivlen = 16)

/-- The expansion of `KEY[0..KLEN)`, no words where `KLEN` is not legal (41_key_schedule.md R83). -/
def State.expansion (s : State) : List Word :=
  match expand s.keyBytes with
  | .ok w => w
  | .error _ => []

/-- The schedule a command uses: the one in `RKS` when `RKVALID` is 1, else the expansion of the key (41_key_schedule.md R86). -/
def State.activeSchedule (s : State) : List Word := if s.rkvalid then s.schedule else s.expansion

/-- The chaining value a stream in mode `m` starts from (44_mode_controller.md R151). -/
def State.startPrev (s : State) (m : Mode) : Block :=
  match m with
  | .ecb => s.prev
  | .cbc => s.iv

/-- What `ensure_schedule` leaves in `RKS` and its flags: nothing changes when `RKVALID` was 1; else
the expansion of the key with its `NK` and `NR` (41_key_schedule.md R85, R86). -/
def ScheduleEnsured (s t : State) : Prop :=
  t.rkvalid = true ∧
  (s.rkvalid = true → t.rks = s.rks ∧ t.nk = s.nk ∧ t.nr = s.nr) ∧
  (s.rkvalid = false →
    t.nk.toNat = s.klen.toNat / 4 ∧ t.nr.toNat = s.klen.toNat / 4 + 6 ∧ t.schedule = s.expansion)

/-- Every byte of IBUF reads as before. -/
def SameIbuf (s t : State) : Prop := ∀ a, t.ibuf.read a = s.ibuf.read a

/-- Every byte of OBUF reads as before. -/
def SameObuf (s t : State) : Prop := ∀ a, t.obuf.read a = s.obuf.read a

/-- The output of a buffer command: `OBUF[0..OUTLEN)` is `out` (10_state.md R23, R29). -/
def Outputs (t : State) (out : List Byte) : Prop :=
  t.outlen.toNat = out.length ∧ t.obuf.readBytes 0 out.length = out

/-- `SENC.m.p` (45_stream_codec.md R170). -/
def sencInstr : Mode → PadPolicy → Instr
  | .ecb, .pkcs7 => .sencEcbPkcs7
  | .cbc, .pkcs7 => .sencCbcPkcs7
  | .ecb, .zero => .sencEcbZero
  | .cbc, .zero => .sencCbcZero
  | .ecb, .none => .sencEcbNone
  | .cbc, .none => .sencCbcNone

/-- `SDEC.m.p` (45_stream_codec.md R171). -/
def sdecInstr : Mode → PadPolicy → Instr
  | .ecb, .pkcs7 => .sdecEcbPkcs7
  | .cbc, .pkcs7 => .sdecCbcPkcs7
  | .ecb, .zero => .sdecEcbZero
  | .cbc, .zero => .sdecCbcZero
  | .ecb, .none => .sdecEcbNone
  | .cbc, .none => .sdecCbcNone

/-- `MINIT.m` (44_mode_controller.md R152, R153). -/
def minitInstr : Mode → Instr
  | .ecb => .minitEcb
  | .cbc => .minitCbc

/-- `MENC.m` (44_mode_controller.md R154, R155). -/
def mencInstr : Mode → Instr
  | .ecb => .mencEcb
  | .cbc => .mencCbc

/-- `MDEC.m` (44_mode_controller.md R156, R157). -/
def mdecInstr : Mode → Instr
  | .ecb => .mdecEcb
  | .cbc => .mdecCbc

/-- `PAD.p` (43_padding.md R136 to R138). -/
def padInstr : PadPolicy → Instr
  | .pkcs7 => .padPkcs7
  | .zero => .padZero
  | .none => .padNone

/-- `UNPAD.p` (43_padding.md R139 to R141). -/
def unpadInstr : PadPolicy → Instr
  | .pkcs7 => .unpadPkcs7
  | .zero => .unpadZero
  | .none => .unpadNone

/-- The setup errors (60_exceptions.md R191, R192). -/
def ErrKind.isSetup : ErrKind → Bool
  | .invalidKeySize | .invalidIVSize | .missingIV | .ioError | .illegalCommand => true
  | .noError | .unalignedData | .invalidPadding => false

/-- The data errors (60_exceptions.md R191, R192). -/
def ErrKind.isData : ErrKind → Bool
  | .unalignedData | .invalidPadding => true
  | .noError | .invalidKeySize | .invalidIVSize | .missingIV | .ioError | .illegalCommand => false

/-- One command per block, as 45_stream_codec.md R174 uses the block-level commands: the host writes
the block to `DIN`, the command `i` runs, the host reads `DOUT`. -/
def runPerBlock (i : Instr) : List Block → State → Option (List Block × State)
  | [], s => some ([], s)
  | b :: rest, s =>
    match exec i { s with din := b } with
    | .next t =>
      match runPerBlock i rest t with
      | some r => some (t.dout :: r.1, r.2)
      | none => none
    | .fault _ => none
    | .refused _ => none

/-! ### The host's view -/

/-- A read of port `p` returns specified content (10_state.md R25, R29, R34). -/
def State.Specified (s : State) (p : Port) : Prop :=
  match p with
  | .rks j => s.rkvalid = true ∧ j.val < 4 * (s.nr.toNat + 1)
  | .obuf k => k + 3 < s.outlen.toNat
  | .refused => False
  | .cmd | .status | .klen | .ivlen | .inlen | .outlen | .errcmd => True
  | .key _ | .iv _ | .din _ | .dout _ | .prev _ | .ibuf _ => True

/-! ### Invariants -/

/-- The schedule belongs to the key: `RKVALID = 1` implies `NK ∈ {4,6,8}`, `NR = NK + 6`, `KLEN = 4*NK`
(10_state.md R19) and `RKS[0..4*(NR+1))` is the expansion of `KEY[0..KLEN)`; with `RKVALID = 0` both are 0. -/
def State.ScheduleCoherent (s : State) : Prop :=
  (s.rkvalid = true →
    keyLengthLegal s.klen.toNat = true ∧ s.klen.toNat = 4 * s.nk.toNat ∧ s.nr.toNat = s.nk.toNat + 6 ∧
      expand s.keyBytes = .ok s.schedule) ∧
  (s.rkvalid = false → s.nk = 0 ∧ s.nr = 0)

/-- Both buffers are in canonical form and list no byte beyond their capacity (10_state.md R27). -/
def State.BuffersCanonical (s : State) : Prop :=
  s.ibuf.wf = true ∧ s.obuf.wf = true ∧
  (∀ c ∈ s.ibuf.cells, c.1 < s.cfg.bufcap) ∧ (∀ c ∈ s.obuf.cells, c.1 < s.cfg.bufcap + 16)

/-- "Always `OUTLEN ≤ BUFCAP + 16`" (10_state.md R23). -/
def State.OutputBounded (s : State) : Prop := s.outlen.toNat ≤ s.cfg.bufcap + 16

/-- `ERRCMD` is "0 when `ERR = 0`" (10_state.md R24). -/
def State.ErrorRecorded (s : State) : Prop := s.err = .noError → s.errcmd = 0

/-- Every invariant of the machine. -/
def State.Inv (s : State) : Prop :=
  s.ScheduleCoherent ∧ s.BuffersCanonical ∧ s.OutputBounded ∧ s.ErrorRecorded

end Sys2Proof.Machine
end

