-- ==== Sys2Proof/Certificates/Slice0/Obligations.lean ====
section
/-! DEFINITION. The statements for the provers, each with the rule of spec/ it formalises. A frame is written as one equation, `t = { s with … }`: every field of the state that is not named there is as before, the model's own fields too. `free`, the model's counter of free values, may always advance. -/

open Sys2Proof Sys2Proof.Machine

/-! ### Encoding -/

/-- A few words, one for each family, written out from R53, and one for each condition of R55 (V60). -/
def Obligations.SpecWordsDecode : Prop :=
  decode 0x00000001 = .ok .kexp ∧ decode 0x00000002 = .ok .encb ∧ decode 0x00000104 = .ok .minitCbc ∧
  decode 0x00000105 = .ok .mencCbc ∧ decode 0x00000106 = .ok .mdecCbc ∧ decode 0x00000407 = .ok .padZero ∧
  decode 0x00000808 = .ok .unpadNone ∧ decode 0x00000509 = .ok .sencCbcZero ∧
  decode 0x0000090A = .ok .sdecCbcNone ∧ decode 0x0000000E = .ok .clrerr ∧
  decode 0x00001001 = .error .reservedBits ∧ decode 0x0000000B = .error .unassignedOpc ∧
  decode 0x00000204 = .error .reservedMode ∧ decode 0x00000C09 = .error .reservedPadp ∧
  decode 0x00000102 = .error .takesNoMode ∧ decode 0x00000404 = .error .takesNoPadp

/-- The 29 words of the list decode to their commands, and no other word does: 30_encoding.md section 3's list,
which the spec marks as derived from R50, R51 and R52. -/
def Obligations.LegalWordsAreExactlyTheList : Prop :=
  let listed : List (Reg32 × Instr) :=
    [(0x001, .kexp), (0x002, .encb), (0x003, .decb), (0x004, .minitEcb), (0x104, .minitCbc), (0x005, .mencEcb),
     (0x105, .mencCbc), (0x006, .mdecEcb), (0x106, .mdecCbc), (0x007, .padPkcs7), (0x407, .padZero),
     (0x807, .padNone), (0x008, .unpadPkcs7), (0x408, .unpadZero), (0x808, .unpadNone), (0x009, .sencEcbPkcs7),
     (0x109, .sencCbcPkcs7), (0x409, .sencEcbZero), (0x509, .sencCbcZero), (0x809, .sencEcbNone),
     (0x909, .sencCbcNone), (0x00A, .sdecEcbPkcs7), (0x10A, .sdecCbcPkcs7), (0x40A, .sdecEcbZero),
     (0x50A, .sdecCbcZero), (0x80A, .sdecEcbNone), (0x90A, .sdecCbcNone), (0x00E, .clrerr), (0x00F, .rst)]
  listed.length = 29 ∧ ∀ (c : Reg32) (i : Instr), decode c = .ok i ↔ (c, i) ∈ listed

/-- R50 to R53: the decoder and the encoder, which builds a word from its fields, agree both ways. -/
def Obligations.DecodeAndEncodeAgree : Prop :=
  (∀ i : Instr, i.wellFormed = true → decode (encode i) = .ok i) ∧
  ∀ (c : Reg32) (i : Instr), decode c = .ok i → encode i = c ∧ i.wellFormed = true

/-- R55: the conditions that make a word illegal, on its bits; and with no error recorded such a word
raises `IllegalCommand` and changes nothing else. -/
def Obligations.IllegalWordsRaise : Prop :=
  ∀ c : Reg32,
    let opc := (c.extractLsb' 0 8).toNat
    let mode := (c.extractLsb' 8 2).toNat
    let padp := (c.extractLsb' 10 2).toNat
    let illegal :=
      c.extractLsb' 12 20 ≠ 0 ∨ (opc = 0x00 ∨ (0x0B ≤ opc ∧ opc ≤ 0x0D) ∨ 0x10 ≤ opc) ∨
      (mode = 2 ∨ mode = 3) ∨ padp = 3 ∨
      (mode ≠ 0 ∧ opc ∈ [0x01, 0x02, 0x03, 0x07, 0x08, 0x0E, 0x0F]) ∨
      (padp ≠ 0 ∧ opc ∈ [0x01, 0x02, 0x03, 0x04, 0x05, 0x06, 0x0E, 0x0F])
    (illegal ↔ ∀ i, decode c ≠ .ok i) ∧
    (illegal → ErrKind.code .illegalCommand = 7 ∧
      ∀ (s : State) (rest : List HostMove), s.host = .write 4 0x000 c :: rest → s.err = .noError →
        step s = .next { s with host := rest, err := .illegalCommand, errcmd := c })

/-! ### Steps -/

/-- A step runs the decoded command: the host's write of a word that decodes to `i`, with no error
recorded, is `exec i` on the state in which that move is taken; and `withFetchWord` places it (the model's
way to issue a command, log entry 10). -/
def Obligations.StepRunsDecodedCommand : Prop :=
  (∀ (s : State) (c : Reg32) (rest : List HostMove) (i : Instr),
    s.host = .write 4 0x000 c :: rest → s.err = .noError → decode c = .ok i →
      step s = exec i { s with host := rest }) ∧
  ∀ (s : State) (i : Instr), s.err = .noError → step (s.withFetchWord 32 (encode i).toNat) = exec i s

/-- R54: the dispatch of a host write of `c` to `CMD`, in every case. -/
def Obligations.CmdWriteDispatches : Prop :=
  ∀ (s : State) (c : Reg32) (rest : List HostMove), s.host = .write 4 0x000 c :: rest →
    let u := { s with host := rest }
    (s.err ≠ .noError → c = 0x0000000E → step s = exec .clrerr u) ∧
    (s.err ≠ .noError → c = 0x0000000F → step s = exec .rst u) ∧
    (s.err ≠ .noError → c ≠ 0x0000000E → c ≠ 0x0000000F → step s = .next u) ∧
    (s.err = .noError → (∀ i, decode c ≠ .ok i) →
      step s = .next { u with err := .illegalCommand, errcmd := c }) ∧
    (s.err = .noError → ∀ i, decode c = .ok i → step s = exec i u)

/-- "every command word in every state has a defined next state" (93_implementation_defined.md, after R54). -/
def Obligations.NoStepStops : Prop :=
  (∀ s : State, GoesOn (step s)) ∧ ∀ (i : Instr) (s : State), GoesOn (exec i s)

/-- With no host move pending nothing changes (R193; the stuttering step is the model's choice, log entry 6). -/
def Obligations.IdleStepChangesNothing : Prop := ∀ s : State, s.host = [] → step s = .next s

/-- R197, R198: in the error state the record changes only by `CLRERR`, `RST` or the reset event. -/
def Obligations.RecordedErrorIsSticky : Prop :=
  ∀ s t : State, s.err ≠ .noError → step s = .next t →
    (t.err = s.err ∧ t.errcmd = s.errcmd) ∨
    (∃ rest, s.host = .reset :: rest) ∨
    ∃ v rest, s.host = .write 4 0x000 v :: rest ∧ (v = 0x0000000E ∨ v = 0x0000000F)

/-- R16: the events that set and clear `CHAINV` and `RKVALID`, and no others. `RKVALID` is set by a successful
expansion (R85), which only `KEXP` and, through `ensure_schedule`, `ENCB`, `DECB`, `MINIT`, `MENC`, `MDEC`, `SENC`
and `SDEC` can reach: `OPC` 0x01 to 0x06, 0x09, 0x0A. -/
def Obligations.FlagsChangeOnlyAsListed : Prop :=
  ∀ s t : State, step s = .next t →
    (s.chainv = false → t.chainv = true → ∃ rest, s.host = .write 4 0x000 0x00000104 :: rest) ∧
    (s.chainv = true → t.chainv = false → (∃ rest, s.host = .reset :: rest) ∨
      ∃ c rest, s.host = .write 4 0x000 c :: rest ∧
        (c = 0x00000004 ∨ c = 0x0000000F ∨ (c.extractLsb' 0 8 = 0x09 ∨ c.extractLsb' 0 8 = 0x0A))) ∧
    (s.rkvalid = true → t.rkvalid = false → (∃ rest, s.host = .reset :: rest) ∨
      ∃ off v rest, s.host = .write 4 off v :: rest ∧
        ((off = 0x000 ∧ v = 0x0000000F) ∨ off = 0x008 ∨ (0x020 ≤ off.toNat ∧ off.toNat ≤ 0x03C))) ∧
    (s.rkvalid = false → t.rkvalid = true →
      s.err = .noError ∧ keyLengthLegal s.klen.toNat = true ∧ ∃ c i rest, s.host = .write 4 0x000 c :: rest ∧
        decode c = .ok i ∧ (c.extractLsb' 0 8).toNat ∈ [0x01, 0x02, 0x03, 0x04, 0x05, 0x06, 0x09, 0x0A])

/-! ### Host accesses -/

/-- R17, R38, R34: which offsets select which register, and which accesses are refused. -/
def Obligations.RegisterMapIsAsListed : Prop :=
  ∀ g : Config,
    portOf g.bufcap 4 0x000 = .cmd ∧ portOf g.bufcap 4 0x004 = .status ∧ portOf g.bufcap 4 0x008 = .klen ∧
    portOf g.bufcap 4 0x00C = .ivlen ∧ portOf g.bufcap 4 0x010 = .inlen ∧ portOf g.bufcap 4 0x014 = .outlen ∧
    portOf g.bufcap 4 0x018 = .errcmd ∧
    (∀ j : Fin 8, portOf g.bufcap 4 (BitVec.ofNat 20 (0x020 + 4 * j.val)) = .key j) ∧
    (∀ j : Fin 4, portOf g.bufcap 4 (BitVec.ofNat 20 (0x040 + 4 * j.val)) = .iv j ∧
      portOf g.bufcap 4 (BitVec.ofNat 20 (0x050 + 4 * j.val)) = .din j ∧
      portOf g.bufcap 4 (BitVec.ofNat 20 (0x060 + 4 * j.val)) = .dout j ∧
      portOf g.bufcap 4 (BitVec.ofNat 20 (0x070 + 4 * j.val)) = .prev j) ∧
    (∀ j : Fin 60, portOf g.bufcap 4 (BitVec.ofNat 20 (0x100 + 4 * j.val)) = .rks j) ∧
    (∀ k : Nat, 4 * k < g.bufcap → portOf g.bufcap 4 (BitVec.ofNat 20 (0x10000 + 4 * k)) = .ibuf (4 * k)) ∧
    (∀ k : Nat, 4 * k < g.bufcap + 16 → portOf g.bufcap 4 (BitVec.ofNat 20 (0x20000 + 4 * k)) = .obuf (4 * k)) ∧
    (∀ (w : Nat) (off : BitVec 20), w ≠ 4 ∨ off.toNat % 4 ≠ 0 → portOf g.bufcap w off = .refused) ∧
    ∀ off : BitVec 20,
      off.toNat = 0x01C ∨ (0x080 ≤ off.toNat ∧ off.toNat < 0x100) ∨ (0x1F0 ≤ off.toNat ∧ off.toNat < 0x10000) ∨
        (0x10000 + g.bufcap ≤ off.toNat ∧ off.toNat < 0x20000) ∨ 0x20000 + g.bufcap + 16 ≤ off.toNat →
      portOf g.bufcap 4 off = .refused

/-- R32: a host read changes nothing of the core, and reading specified content again returns the same.
`rdata` and `free` are the model's own (log entries 4 and 7). -/
def Obligations.HostReadHasNoSideEffect : Prop :=
  ∀ (s : State) (w : Nat) (off : BitVec 20) (rest : List HostMove), s.host = .read w off :: rest →
    ∃ t, step s = .next t ∧ t = { s with host := rest, rdata := t.rdata, free := t.free } ∧
      t.rdata = { s with host := rest }.portRead (portOf s.cfg.bufcap w off) ∧
      (s.Specified (portOf s.cfg.bufcap w off) →
        ({ t with host := .read w off :: rest } : State).portRead (portOf s.cfg.bufcap w off) = t.rdata)

/-- R11: a host write to a word of `KEY` or to `KLEN`, of any value, clears `RKVALID`, `NK` and `NR`.
`RKS` is then unspecified (R25). -/
def Obligations.KeyWriteDropsSchedule : Prop :=
  ∀ (s : State) (v : Reg32) (rest : List HostMove),
    (∀ j : Fin 8, s.host = .write 4 (BitVec.ofNat 20 (0x020 + 4 * j.val)) v :: rest →
      ∃ t, step s = .next t ∧ t.key = s.key.set j.val (unpackWord v) ∧
        t = { s with host := rest, key := t.key, rkvalid := false, nk := 0, nr := 0, rks := t.rks, free := t.free }) ∧
    (s.host = .write 4 0x008 v :: rest →
      ∃ t, step s = .next t ∧ t.klen = v.extractLsb' 0 8 ∧
        t = { s with host := rest, klen := t.klen, rkvalid := false, nk := 0, nr := 0, rks := t.rks, free := t.free })

/-- R21, R22, R32: a host write of `IVLEN`, `INLEN`, a word of `IV`, of `DIN` or of IBUF only stores the
value; an IBUF word stores all its four bytes (R37). -/
def Obligations.PlainWriteOnlyStores : Prop :=
  ∀ (s : State) (v : Reg32) (rest : List HostMove),
    (s.host = .write 4 0x00C v :: rest → step s = .next { s with host := rest, ivlen := v.extractLsb' 0 8 }) ∧
    (s.host = .write 4 0x010 v :: rest → step s = .next { s with host := rest, inlen := v }) ∧
    (∀ j : Fin 4, s.host = .write 4 (BitVec.ofNat 20 (0x040 + 4 * j.val)) v :: rest →
      step s = .next { s with host := rest, iv := setBlockWord s.iv j.val (unpackWord v) }) ∧
    (∀ j : Fin 4, s.host = .write 4 (BitVec.ofNat 20 (0x050 + 4 * j.val)) v :: rest →
      step s = .next { s with host := rest, din := setBlockWord s.din j.val (unpackWord v) }) ∧
    (∀ k : Nat, 4 * k < s.cfg.bufcap → s.ibuf.wf = true →
      s.host = .write 4 (BitVec.ofNat 20 (0x10000 + 4 * k)) v :: rest →
      ∃ t, step s = .next t ∧ t = { s with host := rest, ibuf := t.ibuf } ∧
        t.ibuf.readBytes (4 * k) 4 = (unpackWord v).bytes ∧
        ∀ a, a < 4 * k ∨ 4 * k + 4 ≤ a → t.ibuf.read a = s.ibuf.read a)

/-- R33: a host write to a read-only register is ignored. -/
def Obligations.ReadOnlyWriteIsIgnored : Prop :=
  ∀ (s : State) (off : BitVec 20) (v : Reg32) (rest : List HostMove), s.host = .write 4 off v :: rest →
    off = 0x004 ∨ off = 0x014 ∨ off = 0x018 ∨ (0x060 ≤ off.toNat ∧ off.toNat ≤ 0x07C) ∨
      (0x100 ≤ off.toNat ∧ off.toNat ≤ 0x1EC) ∨ (0x20000 ≤ off.toNat ∧ off.toNat < 0x20000 + s.cfg.bufcap + 16) →
    step s = .next { s with host := rest }

/-- R34: a refused access changes nothing, be it a write or a read, and records no error. What a refused
read returns is a free value, of which nothing is said. -/
def Obligations.RefusedAccessChangesNothing : Prop :=
  ∀ (s : State) (w : Nat) (off : BitVec 20) (rest : List HostMove),
    w ≠ 4 ∨ off.toNat % 4 ≠ 0 ∨ off.toNat = 0x01C ∨ (0x080 ≤ off.toNat ∧ off.toNat < 0x100) ∨
      (0x1F0 ≤ off.toNat ∧ off.toNat < 0x10000) ∨
      (0x10000 + s.cfg.bufcap ≤ off.toNat ∧ off.toNat < 0x20000) ∨ 0x20000 + s.cfg.bufcap + 16 ≤ off.toNat →
    (∀ v, s.host = .write w off v :: rest → step s = .next { s with host := rest }) ∧
    (s.host = .read w off :: rest →
      ∃ t, step s = .next t ∧ t = { s with host := rest, rdata := t.rdata, free := t.free })

/-- R36: each byte array seen through the window has its byte `4j` in bits 31:24 of word `j`, and so on down; an
OBUF word that straddles `OUTLEN` has its valid bytes in their positions (R37). The control registers are plain
32-bit numbers: `CMD` reads 0 (R18), `KLEN` and `IVLEN` are zero-extended (R20, R21), `INLEN`, `OUTLEN` and
`ERRCMD` read as they are (R22 to R24), and `STATUS` is the word whose fields `StatusFieldsStandAsListed` gives. -/
def Obligations.WindowPacksBigEndian : Prop :=
  let packs (r : Reg32) (a : Nat → Byte) : Prop :=
    r.extractLsb' 24 8 = a 0 ∧ r.extractLsb' 16 8 = a 1 ∧ r.extractLsb' 8 8 = a 2 ∧ r.extractLsb' 0 8 = a 3
  ∀ s : State,
    (∀ j : Fin 8, packs (s.portRead (.key j)) fun b => (s.key.toList.flatMap Word.bytes).getD (4 * j.val + b) 0) ∧
    (∀ j : Fin 4, packs (s.portRead (.iv j)) fun b => s.iv.bytes.getD (4 * j.val + b) 0) ∧
    (∀ j : Fin 4, packs (s.portRead (.din j)) fun b => s.din.bytes.getD (4 * j.val + b) 0) ∧
    (∀ j : Fin 4, packs (s.portRead (.dout j)) fun b => s.dout.bytes.getD (4 * j.val + b) 0) ∧
    (∀ j : Fin 4, packs (s.portRead (.prev j)) fun b => s.prev.bytes.getD (4 * j.val + b) 0) ∧
    (∀ k : Nat, packs (s.portRead (.ibuf k)) fun b => s.ibuf.read (k + b)) ∧
    (∀ k b : Nat, b < 4 → k + b < s.outlen.toNat →
      (s.portRead (.obuf k)).extractLsb' (24 - 8 * b) 8 = s.obuf.read (k + b)) ∧
    (∀ j : Fin 60, s.rkvalid = true → j.val < 4 * (s.nr.toNat + 1) →
      packs (s.portRead (.rks j)) fun b => s.rks[j].bytes.getD b 0) ∧
    s.portRead .cmd = 0 ∧ s.portRead .status = s.status ∧
    (s.portRead .klen).toNat = s.klen.toNat ∧ (s.portRead .ivlen).toNat = s.ivlen.toNat ∧
    s.portRead .inlen = s.inlen ∧ s.portRead .outlen = s.outlen ∧ s.portRead .errcmd = s.errcmd

/-- R17, R36: a word written to `KEY`, `IV`, `DIN`, IBUF or `INLEN` reads back as it was written, and the other
words of its array read as before; of a word written to `KLEN` or `IVLEN` bits 7:0 read back and bits 31:8 read 0
(R20, R21). The other bytes of IBUF are in `PlainWriteOnlyStores`. -/
def Obligations.WrittenWordReadsBack : Prop :=
  ∀ (s : State) (v : Reg32) (k : Nat) (i : Fin 8) (j : Fin 4), s.ibuf.wf = true →
    (s.portWrite (.key i) v).portRead (.key i) = v ∧ (s.portWrite (.iv j) v).portRead (.iv j) = v ∧
    (s.portWrite (.din j) v).portRead (.din j) = v ∧ (s.portWrite (.ibuf k) v).portRead (.ibuf k) = v ∧
    (∀ i', i' ≠ i → (s.portWrite (.key i) v).portRead (.key i') = s.portRead (.key i')) ∧
    (∀ j', j' ≠ j → (s.portWrite (.iv j) v).portRead (.iv j') = s.portRead (.iv j') ∧
      (s.portWrite (.din j) v).portRead (.din j') = s.portRead (.din j')) ∧
    (s.portWrite .inlen v).portRead .inlen = v ∧ (s.portWrite .klen v).portRead .klen = v &&& 0x000000FF ∧
    (s.portWrite .ivlen v).portRead .ivlen = v &&& 0x000000FF

/-- R19, R190: the fields of `STATUS`, its reserved bits, and the code of each error kind. -/
def Obligations.StatusFieldsStandAsListed : Prop :=
  ErrKind.code .noError = 0 ∧ ErrKind.code .invalidKeySize = 1 ∧ ErrKind.code .invalidIVSize = 2 ∧
  ErrKind.code .missingIV = 3 ∧ ErrKind.code .unalignedData = 4 ∧ ErrKind.code .invalidPadding = 5 ∧
  ErrKind.code .ioError = 6 ∧ ErrKind.code .illegalCommand = 7 ∧
  ∀ s : State,
    (s.portRead .status).extractLsb' 0 4 = s.err.code ∧ (s.portRead .status).getLsbD 4 = s.rkvalid ∧
    (s.portRead .status).getLsbD 5 = s.chainv ∧ (s.portRead .status).extractLsb' 6 2 = 0 ∧
    (s.portRead .status).extractLsb' 8 4 = s.nk ∧ (s.portRead .status).extractLsb' 12 4 = s.nr ∧
    (s.portRead .status).extractLsb' 16 16 = 0

/-! ### Reset and system commands -/

/-- R31: the values the spec gives for reset. What it leaves unspecified is not stated. -/
def Obligations.ResetValuesAreAsListed : Prop :=
  let s := State.reset
  s.err = .noError ∧ s.rkvalid = false ∧ s.chainv = false ∧ s.nk = 0 ∧ s.nr = 0 ∧ s.klen = 0 ∧ s.ivlen = 0 ∧
  s.inlen = 0 ∧ s.outlen = 0 ∧ s.errcmd = 0

/-- R186, R220: `RST` brings every piece of state to its reset value, in the error state too; the reset
event has the same effect. The data registers, `RKS` and the buffers are unspecified: nothing is said of them. -/
def Obligations.RstResets : Prop :=
  ∀ s : State,
    (∃ t, exec .rst s = .next t ∧ t.err = .noError ∧ t.rkvalid = false ∧ t.chainv = false ∧ t.nk = 0 ∧ t.nr = 0 ∧
      t.klen = 0 ∧ t.ivlen = 0 ∧ t.inlen = 0 ∧ t.outlen = 0 ∧ t.errcmd = 0 ∧
      t.cfg = s.cfg ∧ t.host = s.host ∧ t.rdata = s.rdata) ∧
    (∀ rest, s.host = .write 4 0x000 0x0000000F :: rest → step s = exec .rst { s with host := rest }) ∧
    ∀ rest, s.host = .reset :: rest → step s = exec .rst { s with host := rest }

/-- R185: `CLRERR` clears `ERR` and `ERRCMD`, and nothing else changes. -/
def Obligations.ClrerrAcknowledges : Prop :=
  ∀ s : State, exec .clrerr s = .next { s with err := .noError, errcmd := 0 }

/-! ### The GF(2^8) multiplier and the tables -/

/-- R63: the laws of the field; R60, R61: it is the field of 0x11B, in which 02 doubles. -/
def Obligations.FieldLaws : Prop :=
  (∀ a : Byte, gmul 0x01 a = a ∧ gmul 0x02 a = xtime a ∧
    xtime a = (a <<< 1) ^^^ (if a.getLsbD 7 then 0x1B else 0x00)) ∧
  (∀ a b : Byte, gmul a b = gmul b a) ∧ (∀ a b c : Byte, gmul (gmul a b) c = gmul a (gmul b c)) ∧
  (∀ a b c : Byte, gmul a (b ^^^ c) = gmul a b ^^^ gmul a c) ∧
  (∀ a : Byte, a ≠ 0 → ∀ b : Byte, gmul a b = 0x01 ↔ b = ginv a) ∧ ginv 0x00 = 0x00

/-- R64, R66: SBOX is what its formula computes and has no fixed point, and INVSBOX is its inverse (which the
spec marks as derived from R64). R68: each round constant is the double of the one before, from 01 on. -/
def Obligations.SubstitutionTablesAgree : Prop :=
  (∀ a : Byte, sbox a = sboxFormula a ∧ sbox a ≠ a ∧ invSbox (sbox a) = a ∧ sbox (invSbox a) = a) ∧
  rcon 1 = 0x01 ∧ (∀ j, 1 ≤ j → j < 10 → rcon (j + 1) = xtime (rcon j)) ∧
  (List.range 10).map (fun j => rcon (j + 1)) = [0x01, 0x02, 0x04, 0x08, 0x10, 0x20, 0x40, 0x80, 0x1B, 0x36]

/-- R62: each product table holds the products of its constant, so the form LUT is not observable
(which the spec marks as derived from R61; log entry 11). -/
def Obligations.ProductTablesHoldProducts : Prop :=
  (mulRows 0x02).isSome = true ∧ (mulRows 0x03).isSome = true ∧ (mulRows 0x09).isSome = true ∧
  (mulRows 0x0B).isSome = true ∧ (mulRows 0x0D).isSome = true ∧ (mulRows 0x0E).isSome = true ∧
  (∀ x : Byte, gmul 0x01 x = x) ∧
  ∀ (c : Byte) (rows : List (List Byte)), mulRows c = some rows → ∀ x : Byte, tableAt rows x = gmul c x

/-! ### The key scheduler -/

/-- R83: `expand` fails with `InvalidKeySize` on every other length and else gives `4*(Nr+1)` words: the
key's own, then each by the recurrence, with the extra substitution of 256-bit keys at `i mod 8 = 4`. -/
def Obligations.ExpandFollowsRecurrence : Prop :=
  ∀ key : List Byte,
    (key.length ≠ 16 ∧ key.length ≠ 24 ∧ key.length ≠ 32 → expand key = .error .invalidKeySize) ∧
    (key.length = 16 ∨ key.length = 24 ∨ key.length = 32 →
      let nk := key.length / 4
      ∃ w, expand key = .ok w ∧ w.length = 4 * (nk + 6 + 1) ∧
        (∀ i, i < nk →
          w.getD i .zero = ⟨key.getD (4 * i) 0, key.getD (4 * i + 1) 0, key.getD (4 * i + 2) 0, key.getD (4 * i + 3) 0⟩) ∧
        ∀ i, nk ≤ i → i < w.length →
          let p := w.getD (i - 1) .zero
          let r : Word := ⟨sbox p.b1 ^^^ rcon (i / nk), sbox p.b2, sbox p.b3, sbox p.b0⟩
          let u : Word := ⟨sbox p.b0, sbox p.b1, sbox p.b2, sbox p.b3⟩
          (i % nk = 0 → w.getD i .zero = (w.getD (i - nk) .zero).xor r) ∧
          (i % nk ≠ 0 → nk = 8 → i % nk = 4 → w.getD i .zero = (w.getD (i - nk) .zero).xor u) ∧
          (i % nk ≠ 0 → (nk ≠ 8 ∨ i % nk ≠ 4) → w.getD i .zero = (w.getD (i - nk) .zero).xor p))

/-- R84: a round key is four consecutive words; byte `4c + k` of it is byte `k` of word `4r + c`; there
are `Nr + 1` of them, and round key 0 is the first 16 bytes of the key. -/
def Obligations.RoundKeysGroupWords : Prop :=
  (∀ (w : List Word) (r c k : Nat), c < 4 → k < 4 →
    (roundKey w r).bytes.getD (4 * c + k) 0 = (w.getD (4 * r + c) .zero).bytes.getD k 0) ∧
  ∀ (key : List Byte) (w : List Word), expand key = .ok w →
    w.length / 4 = key.length / 4 + 6 + 1 ∧ w.length % 4 = 0 ∧ (roundKey w 0).bytes = key.take 16

/-- R85: `KEXP` writes the expansion of `KEY[0..KLEN)` and its flags, and nothing else but the words of
`RKS` above the schedule, which are unspecified; with any other `KLEN` it raises before it touches anything. -/
def Obligations.KexpExpandsKey : Prop :=
  ∀ s : State,
    (s.klen = 16 ∨ s.klen = 24 ∨ s.klen = 32 →
      ∃ t, exec .kexp s = .next t ∧ expand s.keyBytes = .ok t.schedule ∧ t.rkvalid = true ∧
        t.nk.toNat = s.klen.toNat / 4 ∧ t.nr.toNat = s.klen.toNat / 4 + 6 ∧
        t = { s with rks := t.rks, nk := t.nk, nr := t.nr, rkvalid := true, free := t.free }) ∧
    (s.klen ≠ 16 ∧ s.klen ≠ 24 ∧ s.klen ≠ 32 →
      exec .kexp s = .next { s with err := .invalidKeySize, errcmd := 0x00000001 })

/-! ### The block cipher -/

/-- R102, R107, R108, R109: each inverse transform undoes its forward transform, on either side. -/
def Obligations.InverseTransformsUndo : Prop :=
  ∀ s rk : Block, addRoundKey (addRoundKey s rk) rk = s ∧
    invSubBytes (subBytes s) = s ∧ subBytes (invSubBytes s) = s ∧
    invShiftRows (shiftRows s) = s ∧ shiftRows (invShiftRows s) = s ∧
    invMixColumns (mixColumns s) = s ∧ mixColumns (invMixColumns s) = s

/-- R102 to R105, R107 to R109: each transform byte by byte, byte `r + 4c` of the 16-byte view being row `r` and
column `c` (R100). R110, R111: the order of the rounds, the final round of encryption, and so the first of
decryption, having no mixing of columns. `e r` is the State after round `r` of encryption, and `d r` the State that
decryption has when rounds `Nr` to `r` are undone; they exist and determine the result. -/
def Obligations.TransformsAndRoundsAreAsListed : Prop :=
  let byteAt (s : Block) (r c : Nat) : Byte := s.bytes.getD (r + 4 * c) 0
  let mixed (m : List Byte) (s : Block) (r c : Nat) : Byte :=
    gmul (m.getD ((0 + 4 - r) % 4) 0) (byteAt s 0 c) ^^^ gmul (m.getD ((1 + 4 - r) % 4) 0) (byteAt s 1 c) ^^^
      gmul (m.getD ((2 + 4 - r) % 4) 0) (byteAt s 2 c) ^^^ gmul (m.getD ((3 + 4 - r) % 4) 0) (byteAt s 3 c)
  (∀ (s k : Block) (r c : Nat), r < 4 → c < 4 →
    byteAt (addRoundKey s k) r c = byteAt s r c ^^^ byteAt k r c ∧
    byteAt (subBytes s) r c = sbox (byteAt s r c) ∧ byteAt (invSubBytes s) r c = invSbox (byteAt s r c) ∧
    byteAt (shiftRows s) r c = byteAt s r ((c + r) % 4) ∧ byteAt (invShiftRows s) r ((c + r) % 4) = byteAt s r c ∧
    byteAt (mixColumns s) r c = mixed [0x02, 0x03, 0x01, 0x01] s r c ∧
    byteAt (invMixColumns s) r c = mixed [0x0E, 0x0B, 0x0D, 0x09] s r c) ∧
  ∀ (b : Block) (w : List Word) (nr : Nat), 1 ≤ nr → w.length = 4 * (nr + 1) →
    (∃ e : Nat → Block, e 0 = addRoundKey b (roundKey w 0) ∧
      (∀ r, 1 ≤ r → r < nr → e r = addRoundKey (mixColumns (shiftRows (subBytes (e (r - 1))))) (roundKey w r)) ∧
      encryptBlock b w = addRoundKey (shiftRows (subBytes (e (nr - 1)))) (roundKey w nr)) ∧
    ∃ d : Nat → Block, d nr = invSubBytes (invShiftRows (addRoundKey b (roundKey w nr))) ∧
      (∀ r, 1 ≤ r → r < nr →
        d r = invSubBytes (invShiftRows (invMixColumns (addRoundKey (d (r + 1)) (roundKey w r))))) ∧
      decryptBlock b w = addRoundKey (d 1) (roundKey w 0)

/-- R115: decryption undoes encryption and encryption undoes decryption, for every block and every
schedule (whatever its words, those of an expansion among them). The spec marks it as derived from R102 to R111. -/
def Obligations.BlockCipherRoundTrip : Prop :=
  ∀ (b : Block) (w : List Word), decryptBlock (encryptBlock b w) w = b ∧ encryptBlock (decryptBlock b w) w = b

/-- R113, R114: `ENCB` and `DECB` give the cipher of `DIN` under the schedule, which they expand first when
`RKVALID` is 0; with no legal key they raise `InvalidKeySize` and nothing else changes. -/
def Obligations.BlockCommandsCipherDin : Prop :=
  ∀ s : State,
    (s.KeyReady →
      (∃ t, exec .encb s = .next t ∧ t.dout = encryptBlock s.din s.activeSchedule ∧ ScheduleEnsured s t ∧
        SameIbuf s t ∧ SameObuf s t ∧
        t = { s with dout := t.dout, rks := t.rks, nk := t.nk, nr := t.nr, rkvalid := t.rkvalid, free := t.free }) ∧
      ∃ t, exec .decb s = .next t ∧ t.dout = decryptBlock s.din s.activeSchedule ∧ ScheduleEnsured s t ∧
        SameIbuf s t ∧ SameObuf s t ∧
        t = { s with dout := t.dout, rks := t.rks, nk := t.nk, nr := t.nr, rkvalid := t.rkvalid, free := t.free }) ∧
    (¬ s.KeyReady →
      exec .encb s = .next { s with err := .invalidKeySize, errcmd := 0x00000002 } ∧
      exec .decb s = .next { s with err := .invalidKeySize, errcmd := 0x00000003 })

/-! ### Padding -/

/-- R130 to R132 and R136 to R138: what `PAD` appends, where it goes, and its errors. -/
def Obligations.PadCommandsPadInput : Prop :=
  ∀ s : State,
    let n := 16 - s.inlen.toNat % 16
    let frame (t : State) : Prop := SameIbuf s t ∧ t = { s with obuf := t.obuf, outlen := t.outlen, free := t.free }
    (s.inlen.toNat ≤ s.cfg.bufcap →
      (∃ t, exec .padPkcs7 s = .next t ∧ Outputs t (s.input ++ List.replicate n (BitVec.ofNat 8 n)) ∧
        t.outlen.toNat = 16 * (s.inlen.toNat / 16 + 1) ∧ frame t) ∧
      (∃ t, exec .padZero s = .next t ∧ Outputs t (s.input ++ List.replicate (n % 16) 0x00) ∧
        t.outlen.toNat = 16 * ((s.inlen.toNat + 15) / 16) ∧ frame t) ∧
      (s.inlen.toNat % 16 = 0 →
        ∃ t, exec .padNone s = .next t ∧ Outputs t s.input ∧ t.outlen = s.inlen ∧ frame t) ∧
      (s.inlen.toNat % 16 ≠ 0 →
        ∃ t, exec .padNone s = .next t ∧
          t = { s with err := .unalignedData, errcmd := 0x00000807, outlen := 0, obuf := t.obuf, free := t.free })) ∧
    (s.cfg.bufcap < s.inlen.toNat → ∀ p,
      exec (padInstr p) s = .next { s with err := .ioError, errcmd := encode (padInstr p), outlen := 0 })

/-- R133: `unpad(·, PKCS7)` gives `out` exactly when the data are `out` and then `n` bytes of value `n`,
1 ≤ n ≤ 16; on all other data it raises `InvalidPadding`. -/
def Obligations.Pkcs7UnpadValidates : Prop :=
  ∀ data : List Byte,
    (∀ out, unpadPkcs7 data = .ok out ↔
      ∃ n, 1 ≤ n ∧ n ≤ 16 ∧ data = out ++ List.replicate n (BitVec.ofNat 8 n)) ∧
    ((∀ out, unpadPkcs7 data ≠ .ok out) → unpadPkcs7 data = .error .invalidPadding)

/-- R134: what `unpad(·, Zero)` removes under each value of `ZERO_UNPAD`: only trailing zero bytes; all of
them, all of them up to 15, or none. -/
def Obligations.ZeroUnpadStripsZeros : Prop :=
  ∀ data : List Byte,
    (∃ k, data = unpadZeros .stripAll data ++ List.replicate k 0x00 ∧
      (unpadZeros .stripAll data).getLast? ≠ some 0x00) ∧
    (∃ k, k ≤ 15 ∧ data = unpadZeros .stripLtBlock data ++ List.replicate k 0x00 ∧
      (k < 15 → (unpadZeros .stripLtBlock data).getLast? ≠ some 0x00)) ∧
    unpadZeros .nothing data = data

/-- R139 to R141: what `UNPAD` leaves, and its errors. The result under policy Zero is named by the
parameter `ZERO_UNPAD`, whatever it is. -/
def Obligations.UnpadCommandsUnpadInput : Prop :=
  ∀ s : State,
    let frame (t : State) : Prop := SameIbuf s t ∧ t = { s with obuf := t.obuf, outlen := t.outlen, free := t.free }
    (s.inlen.toNat ≤ s.cfg.bufcap →
      (∀ out n, 1 ≤ n → n ≤ 16 → s.input = out ++ List.replicate n (BitVec.ofNat 8 n) →
        ∃ t, exec .unpadPkcs7 s = .next t ∧ Outputs t out ∧ frame t) ∧
      ((¬ ∃ out n, 1 ≤ n ∧ n ≤ 16 ∧ s.input = out ++ List.replicate n (BitVec.ofNat 8 n)) →
        ∃ t, exec .unpadPkcs7 s = .next t ∧
          t = { s with err := .invalidPadding, errcmd := 0x00000008, outlen := 0, obuf := t.obuf, free := t.free }) ∧
      (∃ t, exec .unpadZero s = .next t ∧ Outputs t (unpadZeros s.cfg.zeroUnpad s.input) ∧ frame t) ∧
      ∃ t, exec .unpadNone s = .next t ∧ Outputs t s.input ∧ t.outlen = s.inlen ∧ frame t) ∧
    (s.cfg.bufcap < s.inlen.toNat → ∀ p,
      exec (unpadInstr p) s = .next { s with err := .ioError, errcmd := encode (unpadInstr p), outlen := 0 })

/-- R142: `unpad` undoes `pad` under PKCS7 and None; under Zero and `strip_all` exactly when the data do
not end in a zero byte, and else the known length restores them; a padded sequence has a length that is a
multiple of 16 and begins with the data. The spec marks it as derived from R130 to R135. -/
def Obligations.UnpadUndoesPad : Prop :=
  (∀ d : List Byte, ∃ q, pad .pkcs7 d = .ok q ∧ unpadPkcs7 q = .ok d) ∧
  (∀ (z : ZeroUnpad) (d q : List Byte), pad .none d = .ok q → unpad z .none q = .ok d) ∧
  (∀ d : List Byte, ∃ q, pad .zero d = .ok q ∧
    (unpadZeros .stripAll q = d ↔ d.getLast? ≠ some 0x00) ∧
    unpadZeros .stripAll q = unpadZeros .stripAll d ∧
    unpadZeros .stripAll q ++ List.replicate (d.length - (unpadZeros .stripAll q).length) 0x00 = d) ∧
  ∀ (p : PadPolicy) (d q : List Byte), pad p d = .ok q → q.length % 16 = 0 ∧ ∃ e, q = d ++ e

/-! ### Modes -/

/-- R151, R152, R153: the start of a stream: in ECB the chain is closed and the IV neither read nor
checked; in CBC `PREV <- IV`, `IVLEN <- 0`, `CHAINV <- 1`; the errors in their order, each changing only the
record, so that RKVALID too keeps its value (log entry 8). -/
def Obligations.MinitStartsStream : Prop :=
  ∀ s : State,
    (s.KeyReady →
      (∃ t, exec .minitEcb s = .next t ∧ t.chainv = false ∧ ScheduleEnsured s t ∧ SameIbuf s t ∧ SameObuf s t ∧
        t = { s with chainv := false, rks := t.rks, nk := t.nk, nr := t.nr, rkvalid := t.rkvalid, free := t.free }) ∧
      (s.ivlen = 16 →
        ∃ t, exec .minitCbc s = .next t ∧ ScheduleEnsured s t ∧ SameIbuf s t ∧ SameObuf s t ∧
          t = { s with prev := s.iv, ivlen := 0, chainv := true, rks := t.rks, nk := t.nk, nr := t.nr,
                       rkvalid := t.rkvalid, free := t.free }) ∧
      (s.ivlen = 0 → exec .minitCbc s = .next { s with err := .missingIV, errcmd := 0x00000104 }) ∧
      (s.ivlen ≠ 0 → s.ivlen ≠ 16 → exec .minitCbc s = .next { s with err := .invalidIVSize, errcmd := 0x00000104 })) ∧
    (¬ s.KeyReady →
      exec .minitEcb s = .next { s with err := .invalidKeySize, errcmd := 0x00000004 } ∧
      exec .minitCbc s = .next { s with err := .invalidKeySize, errcmd := 0x00000104 })

/-- R154, R156: `MENC.ECB` and `MDEC.ECB` are the transitions of `ENCB` and `DECB`, but for the word an
error records (the spec marks that as derived from R150); `PREV` and `CHAINV` are neither read nor written. -/
def Obligations.EcbBlockCommandsCipherDin : Prop :=
  ∀ s : State,
    (s.KeyReady →
      (∃ t, exec .mencEcb s = .next t ∧ exec .encb s = .next t ∧ t.dout = encryptBlock s.din s.activeSchedule ∧
        ScheduleEnsured s t ∧ SameIbuf s t ∧ SameObuf s t ∧
        t = { s with dout := t.dout, rks := t.rks, nk := t.nk, nr := t.nr, rkvalid := t.rkvalid, free := t.free }) ∧
      ∃ t, exec .mdecEcb s = .next t ∧ exec .decb s = .next t ∧ t.dout = decryptBlock s.din s.activeSchedule ∧
        ScheduleEnsured s t ∧ SameIbuf s t ∧ SameObuf s t ∧
        t = { s with dout := t.dout, rks := t.rks, nk := t.nk, nr := t.nr, rkvalid := t.rkvalid, free := t.free }) ∧
    (¬ s.KeyReady →
      exec .mencEcb s = .next { s with err := .invalidKeySize, errcmd := 0x00000005 } ∧
      exec .mdecEcb s = .next { s with err := .invalidKeySize, errcmd := 0x00000006 })

/-- R155, R157: `MENC.CBC` and `MDEC.CBC` in an open chain, from the values of `DIN` and `PREV` before the
command; `InvalidKeySize`, then `MissingIV` with no chain open, change only the record, so that RKVALID too
keeps its value (log entry 8). -/
def Obligations.CbcBlockCommandsChain : Prop :=
  ∀ s : State,
    (s.KeyReady → s.chainv = true →
      (∃ t, exec .mencCbc s = .next t ∧ t.dout = encryptBlock (s.din.xor s.prev) s.activeSchedule ∧
        t.prev = t.dout ∧ ScheduleEnsured s t ∧ SameIbuf s t ∧ SameObuf s t ∧
        t = { s with dout := t.dout, prev := t.prev, rks := t.rks, nk := t.nk, nr := t.nr,
                     rkvalid := t.rkvalid, free := t.free }) ∧
      ∃ t, exec .mdecCbc s = .next t ∧ t.dout = (decryptBlock s.din s.activeSchedule).xor s.prev ∧
        t.prev = s.din ∧ ScheduleEnsured s t ∧ SameIbuf s t ∧ SameObuf s t ∧
        t = { s with dout := t.dout, prev := t.prev, rks := t.rks, nk := t.nk, nr := t.nr,
                     rkvalid := t.rkvalid, free := t.free }) ∧
    (s.KeyReady → s.chainv = false →
      exec .mencCbc s = .next { s with err := .missingIV, errcmd := 0x00000105 } ∧
      exec .mdecCbc s = .next { s with err := .missingIV, errcmd := 0x00000106 }) ∧
    (¬ s.KeyReady →
      exec .mencCbc s = .next { s with err := .invalidKeySize, errcmd := 0x00000105 } ∧
      exec .mdecCbc s = .next { s with err := .invalidKeySize, errcmd := 0x00000106 })

/-- R158: decryption of a sequence of blocks in a mode, from the chaining value its encryption started
from, returns the blocks and ends with the same chaining value. The spec marks it as derived from R150 and R115. -/
def Obligations.ModeRoundTrip : Prop :=
  ∀ (m : Mode) (w : List Word) (l : List Block) (v : Block),
    (decBlocks m w (encBlocks m w l v).1 v).1 = l ∧
    (m = .cbc → (decBlocks m w (encBlocks m w l v).1 v).2 = (encBlocks m w l v).2)

/-- R158: in ECB each block stands for itself, so equal blocks give equal blocks; in CBC equal blocks give
equal blocks exactly when their chaining values are equal. The spec marks it as derived from R150 and R115. -/
def Obligations.EcbIsDeterministic : Prop :=
  (∀ (w : List Word) (l : List Block) (v : Block), (encBlocks .ecb w l v).1 = l.map (encryptBlock · w)) ∧
  ∀ (w : List Word) (b p q : Block), (cbcEnc b p w).1 = (cbcEnc b q w).1 ↔ p = q

/-- R158: changing ciphertext block `i` by `e` changes plaintext block `i`, changes block `i + 1` by exactly
`e`, and no other; changing the IV by `e` changes exactly block 0, by `e`. Block 0 is no exception
(90_conflicts.md C5). The spec marks it as derived from R150 and R115. -/
def Obligations.CbcErrorPropagates : Prop :=
  ∀ (w : List Word) (pre post : List Block) (c e v : Block), e ≠ .zero →
    let d := (decBlocks .cbc w (pre ++ c :: post) v).1
    let d' := (decBlocks .cbc w (pre ++ c.xor e :: post) v).1
    d'.length = d.length ∧ d'.getD pre.length .zero ≠ d.getD pre.length .zero ∧
    (post ≠ [] → d'.getD (pre.length + 1) .zero = (d.getD (pre.length + 1) .zero).xor e) ∧
    (∀ i, i ≠ pre.length → i ≠ pre.length + 1 → d'.getD i .zero = d.getD i .zero) ∧
    ((decBlocks .cbc w (c :: post) (v.xor e)).1.getD 0 .zero = ((decBlocks .cbc w (c :: post) v).1.getD 0 .zero).xor e) ∧
    ∀ i, i ≠ 0 → (decBlocks .cbc w (c :: post) (v.xor e)).1.getD i .zero = (decBlocks .cbc w (c :: post) v).1.getD i .zero

/-! ### Streams -/

/-- R170: a successful `SENC.m.p` outputs the mode encryption, block by block in order, of the whole input
padded, from the IV in CBC; `PREV` is then the last chaining value, the chain is closed and the IV consumed. -/
def Obligations.SencEncryptsPaddedInput : Prop :=
  ∀ (s : State) (m : Mode) (p : PadPolicy),
    s.inlen.toNat ≤ s.cfg.bufcap → s.StartReady m → (p = .none → s.inlen.toNat % 16 = 0) →
    ∃ padded t, pad p s.input = .ok padded ∧ exec (sencInstr m p) s = .next t ∧
      let r := encBlocks m s.activeSchedule (blocksOfBytes padded (padded.length / 16)) (s.startPrev m)
      Outputs t (bytesOfBlocks r.1) ∧ t.prev = r.2 ∧ t.outlen.toNat = padded.length ∧
      t.ivlen = (match m with | .ecb => s.ivlen | .cbc => 0) ∧ ScheduleEnsured s t ∧ SameIbuf s t ∧
      t = { s with obuf := t.obuf, outlen := t.outlen, prev := t.prev, ivlen := t.ivlen, chainv := false,
                   rks := t.rks, nk := t.nk, nr := t.nr, rkvalid := t.rkvalid, free := t.free }

/-- R171: a successful `SDEC.m.p` outputs the decrypted blocks with the padding removed after all of them;
`PREV` is then the last ciphertext block (the IV if there is none) in CBC and unchanged in ECB. -/
def Obligations.SdecDecryptsInput : Prop :=
  ∀ (s : State) (m : Mode) (p : PadPolicy),
    let n := s.inlen.toNat / 16
    let blocks := blocksOfBytes s.input n
    let plain := bytesOfBlocks (decBlocks m s.activeSchedule blocks (s.startPrev m)).1
    ∀ out : List Byte,
    s.inlen.toNat ≤ s.cfg.bufcap → s.StartReady m → s.inlen.toNat % 16 = 0 →
    (match p with
      | .pkcs7 => ∃ k, 1 ≤ k ∧ k ≤ 16 ∧ plain = out ++ List.replicate k (BitVec.ofNat 8 k)
      | .zero => out = unpadZeros s.cfg.zeroUnpad plain
      | .none => out = plain) →
    ∃ t, exec (sdecInstr m p) s = .next t ∧ Outputs t out ∧
      t.prev = (match m with | .ecb => s.prev | .cbc => blocks.getLastD s.iv) ∧
      t.ivlen = (match m with | .ecb => s.ivlen | .cbc => 0) ∧ ScheduleEnsured s t ∧ SameIbuf s t ∧
      t = { s with obuf := t.obuf, outlen := t.outlen, prev := t.prev, ivlen := t.ivlen, chainv := false,
                   rks := t.rks, nk := t.nk, nr := t.nr, rkvalid := t.rkvalid, free := t.free }

/-- R194 on the stream commands: the setup error reported is the first whose condition holds, and it
changes only the record and `OUTLEN` (R195), so that RKVALID too keeps its value (log entry 8). -/
def Obligations.StreamSetupErrorsInOrder : Prop :=
  ∀ (s : State) (m : Mode) (p : PadPolicy) (i : Instr), i = sencInstr m p ∨ i = sdecInstr m p →
    let failed (e : ErrKind) : Prop := exec i s = .next { s with err := e, errcmd := encode i, outlen := 0 }
    (s.cfg.bufcap < s.inlen.toNat → failed .ioError) ∧
    (s.inlen.toNat ≤ s.cfg.bufcap → ¬ s.KeyReady → failed .invalidKeySize) ∧
    (s.inlen.toNat ≤ s.cfg.bufcap → s.KeyReady → m = .cbc → s.ivlen = 0 → failed .missingIV) ∧
    (s.inlen.toNat ≤ s.cfg.bufcap → s.KeyReady → m = .cbc → s.ivlen ≠ 0 → s.ivlen ≠ 16 → failed .invalidIVSize)

/-- R170, R171, R196: the data errors of the stream commands: which is raised, and what it leaves. OBUF
and, in CBC, `PREV` are unspecified: nothing is said of them. In ECB `PREV` stays (log entry 13). -/
def Obligations.StreamDataErrorsLeave : Prop :=
  ∀ (s : State) (m : Mode) (p : PadPolicy), s.inlen.toNat ≤ s.cfg.bufcap → s.StartReady m →
    let plain := bytesOfBlocks
      (decBlocks m s.activeSchedule (blocksOfBytes s.input (s.inlen.toNat / 16)) (s.startPrev m)).1
    let failed (i : Instr) (e : ErrKind) : Prop :=
      ∃ t, exec i s = .next t ∧ ScheduleEnsured s t ∧ SameIbuf s t ∧
        t.ivlen = (match m with | .ecb => s.ivlen | .cbc => 0) ∧ (m = .ecb → t.prev = s.prev) ∧
        t = { s with err := e, errcmd := encode i, outlen := 0, chainv := false, ivlen := t.ivlen, prev := t.prev,
                     obuf := t.obuf, rks := t.rks, nk := t.nk, nr := t.nr, rkvalid := t.rkvalid, free := t.free }
    (s.inlen.toNat % 16 ≠ 0 → failed (sencInstr m .none) .unalignedData ∧ failed (sdecInstr m p) .unalignedData) ∧
    (s.inlen.toNat % 16 = 0 →
      (¬ ∃ out k, 1 ≤ k ∧ k ≤ 16 ∧ plain = out ++ List.replicate k (BitVec.ofNat 8 k)) →
        failed (sdecInstr m .pkcs7) .invalidPadding)

/-- R173: `SDEC.m.p` of what `SENC.m.p` produced, with the same key and, in CBC, the IV supplied again,
succeeds and produces the input under PKCS7 and None, and `unpad(pad(X, Zero), Zero)` under Zero, which
under `strip_all` is the input when it does not end in a zero byte. The spec marks it as derived from R170,
R171, R142 and R158. -/
def Obligations.StreamRoundTrip : Prop :=
  ∀ (s t u : State) (m : Mode) (p : PadPolicy) (padded : List Byte),
    s.ScheduleCoherent → s.inlen.toNat ≤ s.cfg.bufcap → s.StartReady m → pad p s.input = .ok padded →
    exec (sencInstr m p) s = .next t →
    u.ScheduleCoherent → u.cfg = s.cfg → u.key = s.key → u.klen = s.klen → (m = .cbc → u.ivlen = 16 ∧ u.iv = s.iv) →
    u.inlen = t.outlen → u.inlen.toNat ≤ u.cfg.bufcap → u.input = t.obuf.readBytes 0 t.outlen.toNat →
    ∃ v, exec (sdecInstr m p) u = .next v ∧ v.err = u.err ∧
      (p ≠ .zero → Outputs v s.input) ∧
      (p = .zero → Outputs v (unpadZeros s.cfg.zeroUnpad padded)) ∧
      (p = .zero → s.cfg.zeroUnpad = .stripAll → s.input.getLast? ≠ some 0x00 → Outputs v s.input)

/-- R174: `SENC.m.NONE` on `16n` bytes gives what `MINIT.m` and then `n` times `MENC.m` give, and leaves the
same `PREV`; only `CHAINV` differs at the end. Likewise `SDEC` and `MDEC`. The spec marks it as derived from
R170 and R152 to R157. -/
def Obligations.StreamEqualsBlockCommands : Prop :=
  ∀ (s : State) (m : Mode) (n : Nat), s.inlen.toNat = 16 * n → s.inlen.toNat ≤ s.cfg.bufcap → s.StartReady m →
    let agree (stream block : Instr) : Prop :=
      ∃ t u r, exec stream s = .next t ∧ exec (minitInstr m) s = .next u ∧
        runPerBlock block (blocksOfBytes s.input n) u = some r ∧
        Outputs t (bytesOfBlocks r.1) ∧ t.prev = r.2.prev ∧
        t.chainv = false ∧ r.2.chainv = (match m with | .ecb => false | .cbc => true)
    agree (sencInstr m .none) (mencInstr m) ∧ agree (sdecInstr m .none) (mdecInstr m)

/-! ### Errors and frames over all commands -/

/-- R195: an error raised by the command `i` is recorded with its word, and `OUTLEN` becomes 0 for `PAD`,
`UNPAD`, `SENC` and `SDEC`; for a setup error nothing else changes, RKVALID included (log entry 8). -/
def Obligations.RaisedErrorIsRecorded : Prop :=
  ∀ (i : Instr) (s t : State), s.err = .noError → exec i s = .next t → t.err ≠ .noError →
    let buffer : Bool := decide (i.fields.opc.toNat ∈ [0x07, 0x08, 0x09, 0x0A])
    t.errcmd = encode i ∧ (buffer = true → t.outlen = 0) ∧
    (t.err.isSetup = true →
      t = { s with err := t.err, errcmd := encode i, outlen := if buffer then 0 else s.outlen })

/-- R196: what a data error leaves as it was, for every command that can meet one; in ECB `PREV` stays too
(log entry 13). -/
def Obligations.DataErrorKeepsTheRest : Prop :=
  ∀ (i : Instr) (s t : State), s.err = .noError → exec i s = .next t → t.err.isData = true →
    let opc := i.fields.opc.toNat
    t.outlen = 0 ∧ t.errcmd = encode i ∧ SameIbuf s t ∧
    t = { s with err := t.err, errcmd := t.errcmd, outlen := 0, obuf := t.obuf, chainv := t.chainv, ivlen := t.ivlen,
                 prev := t.prev, rks := t.rks, nk := t.nk, nr := t.nr, rkvalid := t.rkvalid, free := t.free } ∧
    (opc = 0x09 ∨ opc = 0x0A → t.chainv = false ∧ t.rkvalid = true ∧ ScheduleEnsured s t ∧
      (i.fields.mode = 1 → t.ivlen = 0) ∧ (i.fields.mode = 0 → t.ivlen = s.ivlen ∧ t.prev = s.prev)) ∧
    (opc ≠ 0x09 ∧ opc ≠ 0x0A →
      (opc = 0x07 ∨ opc = 0x08) ∧ t.chainv = s.chainv ∧ t.ivlen = s.ivlen ∧ t.prev = s.prev ∧ t.rks = s.rks ∧
        t.nk = s.nk ∧ t.nr = s.nr ∧ t.rkvalid = s.rkvalid)

/-- R10, R13, R20, R22, R28: no command but `RST` writes `KEY`, `KLEN`, `IV`, `DIN`, `INLEN` or IBUF, and none
touches the parameters or the host's side. -/
def Obligations.CommandsKeepTheirInputs : Prop :=
  ∀ (i : Instr) (s t : State), exec i s = .next t →
    t.cfg = s.cfg ∧ t.host = s.host ∧ t.rdata = s.rdata ∧
    (i ≠ .rst → t.key = s.key ∧ t.klen = s.klen ∧ t.iv = s.iv ∧ t.din = s.din ∧ t.inlen = s.inlen ∧ SameIbuf s t)

/-- R37, R22: a command reads IBUF below INLEN only: two states that differ only in other bytes of IBUF
end in states that differ only in IBUF. -/
def Obligations.SurplusInputIsNotRead : Prop :=
  ∀ (i : Instr) (s t : State) (m : Mem), exec i s = .next t →
    (∀ k, k < s.inlen.toNat → m.read k = s.ibuf.read k) →
    ∃ t', exec i { s with ibuf := m } = .next t' ∧ t' = { t with ibuf := t'.ibuf }

/-- R85, R10: bytes `KEY[KLEN..32)` are not read: two states that differ only in words of `KEY` at and above
`KLEN` bytes end in states that differ only in `KEY`. -/
def Obligations.KeyTailIsNotRead : Prop :=
  ∀ (i : Instr) (s t : State) (k : Vector Word 8), exec i s = .next t →
    (∀ j : Fin 8, 4 * j.val < s.klen.toNat → k[j] = s.key[j]) →
    ∃ t', exec i { s with key := k } = .next t' ∧ t' = { t with key := t'.key }

/-! ### Invariants -/

/-- R19, R25: every step keeps the schedule the expansion of the key, with `NK` and `NR` those of its length.
The spec marks R19's invariant as derived from R11 and R85. -/
def Obligations.StepKeepsScheduleCoherent : Prop :=
  ∀ s t : State, s.ScheduleCoherent → step s = .next t → t.ScheduleCoherent

/-- R27: every step keeps both buffers within their capacity, and in the model's canonical form (log entries 2 and 3). -/
def Obligations.StepKeepsBuffersCanonical : Prop :=
  ∀ s t : State, s.BuffersCanonical → step s = .next t → t.BuffersCanonical

/-- R23: every step keeps `OUTLEN ≤ BUFCAP + 16`. -/
def Obligations.StepKeepsOutputBounded : Prop :=
  ∀ s t : State, s.OutputBounded → step s = .next t → t.OutputBounded

/-- R24: every step keeps `ERRCMD` 0 when `ERR` is 0. -/
def Obligations.StepKeepsErrorRecorded : Prop :=
  ∀ s t : State, s.ErrorRecorded → step s = .next t → t.ErrorRecorded

/-- The invariants hold at reset. -/
def Obligations.ResetMeetsInvariants : Prop := State.reset.Inv

/-- Every state that any number of steps reaches from a state that meets the invariants meets them, and the
parameters never change; in particular from reset with any moves of the host pending. -/
def Obligations.ReachableStatesMeetInvariants : Prop :=
  ∀ (k : Nat) (s t : State), s.Inv → core.run k s = .next t → t.Inv ∧ t.cfg = s.cfg
end

