-- ==== Sys2Proof/Laws/State.lean ====
section
/-! SUPPORT. What each named update of the state does to each field, so that no proof unfolds a record update. -/

namespace Sys2Proof.Machine

variable (s : State)

/-! ### forgetOutput -/

@[simp] theorem State.forgetOutput_key : s.forgetOutput.key = s.key := rfl
@[simp] theorem State.forgetOutput_iv : s.forgetOutput.iv = s.iv := rfl
@[simp] theorem State.forgetOutput_din : s.forgetOutput.din = s.din := rfl
@[simp] theorem State.forgetOutput_dout : s.forgetOutput.dout = s.dout := rfl
@[simp] theorem State.forgetOutput_prev : s.forgetOutput.prev = s.prev := rfl
@[simp] theorem State.forgetOutput_err : s.forgetOutput.err = s.err := rfl
@[simp] theorem State.forgetOutput_rkvalid : s.forgetOutput.rkvalid = s.rkvalid := rfl
@[simp] theorem State.forgetOutput_chainv : s.forgetOutput.chainv = s.chainv := rfl
@[simp] theorem State.forgetOutput_nk : s.forgetOutput.nk = s.nk := rfl
@[simp] theorem State.forgetOutput_nr : s.forgetOutput.nr = s.nr := rfl
@[simp] theorem State.forgetOutput_klen : s.forgetOutput.klen = s.klen := rfl
@[simp] theorem State.forgetOutput_ivlen : s.forgetOutput.ivlen = s.ivlen := rfl
@[simp] theorem State.forgetOutput_inlen : s.forgetOutput.inlen = s.inlen := rfl
@[simp] theorem State.forgetOutput_outlen : s.forgetOutput.outlen = s.outlen := rfl
@[simp] theorem State.forgetOutput_errcmd : s.forgetOutput.errcmd = s.errcmd := rfl
@[simp] theorem State.forgetOutput_rks : s.forgetOutput.rks = s.rks := rfl
@[simp] theorem State.forgetOutput_ibuf : s.forgetOutput.ibuf = s.ibuf := rfl
@[simp] theorem State.forgetOutput_obuf : s.forgetOutput.obuf = .unspecified s.free .obuf := rfl
@[simp] theorem State.forgetOutput_cfg : s.forgetOutput.cfg = s.cfg := rfl
@[simp] theorem State.forgetOutput_host : s.forgetOutput.host = s.host := rfl
@[simp] theorem State.forgetOutput_rdata : s.forgetOutput.rdata = s.rdata := rfl
@[simp] theorem State.forgetOutput_free : s.forgetOutput.free = s.free + 1 := rfl

/-! ### forgetPrev -/

@[simp] theorem State.forgetPrev_key : s.forgetPrev.key = s.key := rfl
@[simp] theorem State.forgetPrev_iv : s.forgetPrev.iv = s.iv := rfl
@[simp] theorem State.forgetPrev_din : s.forgetPrev.din = s.din := rfl
@[simp] theorem State.forgetPrev_dout : s.forgetPrev.dout = s.dout := rfl
@[simp] theorem State.forgetPrev_prev : s.forgetPrev.prev = freeBlock s.free .prev := rfl
@[simp] theorem State.forgetPrev_err : s.forgetPrev.err = s.err := rfl
@[simp] theorem State.forgetPrev_rkvalid : s.forgetPrev.rkvalid = s.rkvalid := rfl
@[simp] theorem State.forgetPrev_chainv : s.forgetPrev.chainv = s.chainv := rfl
@[simp] theorem State.forgetPrev_nk : s.forgetPrev.nk = s.nk := rfl
@[simp] theorem State.forgetPrev_nr : s.forgetPrev.nr = s.nr := rfl
@[simp] theorem State.forgetPrev_klen : s.forgetPrev.klen = s.klen := rfl
@[simp] theorem State.forgetPrev_ivlen : s.forgetPrev.ivlen = s.ivlen := rfl
@[simp] theorem State.forgetPrev_inlen : s.forgetPrev.inlen = s.inlen := rfl
@[simp] theorem State.forgetPrev_outlen : s.forgetPrev.outlen = s.outlen := rfl
@[simp] theorem State.forgetPrev_errcmd : s.forgetPrev.errcmd = s.errcmd := rfl
@[simp] theorem State.forgetPrev_rks : s.forgetPrev.rks = s.rks := rfl
@[simp] theorem State.forgetPrev_ibuf : s.forgetPrev.ibuf = s.ibuf := rfl
@[simp] theorem State.forgetPrev_obuf : s.forgetPrev.obuf = s.obuf := rfl
@[simp] theorem State.forgetPrev_cfg : s.forgetPrev.cfg = s.cfg := rfl
@[simp] theorem State.forgetPrev_host : s.forgetPrev.host = s.host := rfl
@[simp] theorem State.forgetPrev_rdata : s.forgetPrev.rdata = s.rdata := rfl
@[simp] theorem State.forgetPrev_free : s.forgetPrev.free = s.free + 1 := rfl

/-! ### setDout -/

@[simp] theorem State.setDout_key (b : Block) : (s.setDout b).key = s.key := rfl
@[simp] theorem State.setDout_iv (b : Block) : (s.setDout b).iv = s.iv := rfl
@[simp] theorem State.setDout_din (b : Block) : (s.setDout b).din = s.din := rfl
@[simp] theorem State.setDout_dout (b : Block) : (s.setDout b).dout = b := rfl
@[simp] theorem State.setDout_prev (b : Block) : (s.setDout b).prev = s.prev := rfl
@[simp] theorem State.setDout_err (b : Block) : (s.setDout b).err = s.err := rfl
@[simp] theorem State.setDout_rkvalid (b : Block) : (s.setDout b).rkvalid = s.rkvalid := rfl
@[simp] theorem State.setDout_chainv (b : Block) : (s.setDout b).chainv = s.chainv := rfl
@[simp] theorem State.setDout_nk (b : Block) : (s.setDout b).nk = s.nk := rfl
@[simp] theorem State.setDout_nr (b : Block) : (s.setDout b).nr = s.nr := rfl
@[simp] theorem State.setDout_klen (b : Block) : (s.setDout b).klen = s.klen := rfl
@[simp] theorem State.setDout_ivlen (b : Block) : (s.setDout b).ivlen = s.ivlen := rfl
@[simp] theorem State.setDout_inlen (b : Block) : (s.setDout b).inlen = s.inlen := rfl
@[simp] theorem State.setDout_outlen (b : Block) : (s.setDout b).outlen = s.outlen := rfl
@[simp] theorem State.setDout_errcmd (b : Block) : (s.setDout b).errcmd = s.errcmd := rfl
@[simp] theorem State.setDout_rks (b : Block) : (s.setDout b).rks = s.rks := rfl
@[simp] theorem State.setDout_ibuf (b : Block) : (s.setDout b).ibuf = s.ibuf := rfl
@[simp] theorem State.setDout_obuf (b : Block) : (s.setDout b).obuf = s.obuf := rfl
@[simp] theorem State.setDout_cfg (b : Block) : (s.setDout b).cfg = s.cfg := rfl
@[simp] theorem State.setDout_host (b : Block) : (s.setDout b).host = s.host := rfl
@[simp] theorem State.setDout_rdata (b : Block) : (s.setDout b).rdata = s.rdata := rfl
@[simp] theorem State.setDout_free (b : Block) : (s.setDout b).free = s.free := rfl

/-! ### setPrev -/

@[simp] theorem State.setPrev_key (b : Block) : (s.setPrev b).key = s.key := rfl
@[simp] theorem State.setPrev_iv (b : Block) : (s.setPrev b).iv = s.iv := rfl
@[simp] theorem State.setPrev_din (b : Block) : (s.setPrev b).din = s.din := rfl
@[simp] theorem State.setPrev_dout (b : Block) : (s.setPrev b).dout = s.dout := rfl
@[simp] theorem State.setPrev_prev (b : Block) : (s.setPrev b).prev = b := rfl
@[simp] theorem State.setPrev_err (b : Block) : (s.setPrev b).err = s.err := rfl
@[simp] theorem State.setPrev_rkvalid (b : Block) : (s.setPrev b).rkvalid = s.rkvalid := rfl
@[simp] theorem State.setPrev_chainv (b : Block) : (s.setPrev b).chainv = s.chainv := rfl
@[simp] theorem State.setPrev_nk (b : Block) : (s.setPrev b).nk = s.nk := rfl
@[simp] theorem State.setPrev_nr (b : Block) : (s.setPrev b).nr = s.nr := rfl
@[simp] theorem State.setPrev_klen (b : Block) : (s.setPrev b).klen = s.klen := rfl
@[simp] theorem State.setPrev_ivlen (b : Block) : (s.setPrev b).ivlen = s.ivlen := rfl
@[simp] theorem State.setPrev_inlen (b : Block) : (s.setPrev b).inlen = s.inlen := rfl
@[simp] theorem State.setPrev_outlen (b : Block) : (s.setPrev b).outlen = s.outlen := rfl
@[simp] theorem State.setPrev_errcmd (b : Block) : (s.setPrev b).errcmd = s.errcmd := rfl
@[simp] theorem State.setPrev_rks (b : Block) : (s.setPrev b).rks = s.rks := rfl
@[simp] theorem State.setPrev_ibuf (b : Block) : (s.setPrev b).ibuf = s.ibuf := rfl
@[simp] theorem State.setPrev_obuf (b : Block) : (s.setPrev b).obuf = s.obuf := rfl
@[simp] theorem State.setPrev_cfg (b : Block) : (s.setPrev b).cfg = s.cfg := rfl
@[simp] theorem State.setPrev_host (b : Block) : (s.setPrev b).host = s.host := rfl
@[simp] theorem State.setPrev_rdata (b : Block) : (s.setPrev b).rdata = s.rdata := rfl
@[simp] theorem State.setPrev_free (b : Block) : (s.setPrev b).free = s.free := rfl

/-! ### setOutput -/

@[simp] theorem State.setOutput_key (out : List Byte) : (s.setOutput out).key = s.key := rfl
@[simp] theorem State.setOutput_iv (out : List Byte) : (s.setOutput out).iv = s.iv := rfl
@[simp] theorem State.setOutput_din (out : List Byte) : (s.setOutput out).din = s.din := rfl
@[simp] theorem State.setOutput_dout (out : List Byte) : (s.setOutput out).dout = s.dout := rfl
@[simp] theorem State.setOutput_prev (out : List Byte) : (s.setOutput out).prev = s.prev := rfl
@[simp] theorem State.setOutput_err (out : List Byte) : (s.setOutput out).err = s.err := rfl
@[simp] theorem State.setOutput_rkvalid (out : List Byte) : (s.setOutput out).rkvalid = s.rkvalid := rfl
@[simp] theorem State.setOutput_chainv (out : List Byte) : (s.setOutput out).chainv = s.chainv := rfl
@[simp] theorem State.setOutput_nk (out : List Byte) : (s.setOutput out).nk = s.nk := rfl
@[simp] theorem State.setOutput_nr (out : List Byte) : (s.setOutput out).nr = s.nr := rfl
@[simp] theorem State.setOutput_klen (out : List Byte) : (s.setOutput out).klen = s.klen := rfl
@[simp] theorem State.setOutput_ivlen (out : List Byte) : (s.setOutput out).ivlen = s.ivlen := rfl
@[simp] theorem State.setOutput_inlen (out : List Byte) : (s.setOutput out).inlen = s.inlen := rfl
@[simp] theorem State.setOutput_outlen (out : List Byte) : (s.setOutput out).outlen = BitVec.ofNat 32 out.length := rfl
@[simp] theorem State.setOutput_errcmd (out : List Byte) : (s.setOutput out).errcmd = s.errcmd := rfl
@[simp] theorem State.setOutput_rks (out : List Byte) : (s.setOutput out).rks = s.rks := rfl
@[simp] theorem State.setOutput_ibuf (out : List Byte) : (s.setOutput out).ibuf = s.ibuf := rfl
@[simp] theorem State.setOutput_obuf (out : List Byte) : (s.setOutput out).obuf = (Mem.unspecified s.free .obuf).writeBytes 0 out := rfl
@[simp] theorem State.setOutput_cfg (out : List Byte) : (s.setOutput out).cfg = s.cfg := rfl
@[simp] theorem State.setOutput_host (out : List Byte) : (s.setOutput out).host = s.host := rfl
@[simp] theorem State.setOutput_rdata (out : List Byte) : (s.setOutput out).rdata = s.rdata := rfl
@[simp] theorem State.setOutput_free (out : List Byte) : (s.setOutput out).free = s.free + 1 := rfl

/-! ### setSchedule -/

@[simp] theorem State.setSchedule_key (w : List Word) : (s.setSchedule w).key = s.key := rfl
@[simp] theorem State.setSchedule_iv (w : List Word) : (s.setSchedule w).iv = s.iv := rfl
@[simp] theorem State.setSchedule_din (w : List Word) : (s.setSchedule w).din = s.din := rfl
@[simp] theorem State.setSchedule_dout (w : List Word) : (s.setSchedule w).dout = s.dout := rfl
@[simp] theorem State.setSchedule_prev (w : List Word) : (s.setSchedule w).prev = s.prev := rfl
@[simp] theorem State.setSchedule_err (w : List Word) : (s.setSchedule w).err = s.err := rfl
@[simp] theorem State.setSchedule_rkvalid (w : List Word) : (s.setSchedule w).rkvalid = true := rfl
@[simp] theorem State.setSchedule_chainv (w : List Word) : (s.setSchedule w).chainv = s.chainv := rfl
@[simp] theorem State.setSchedule_nk (w : List Word) : (s.setSchedule w).nk = BitVec.ofNat 4 (s.klen.toNat / 4) := rfl
@[simp] theorem State.setSchedule_nr (w : List Word) : (s.setSchedule w).nr = BitVec.ofNat 4 (s.klen.toNat / 4 + 6) := rfl
@[simp] theorem State.setSchedule_klen (w : List Word) : (s.setSchedule w).klen = s.klen := rfl
@[simp] theorem State.setSchedule_ivlen (w : List Word) : (s.setSchedule w).ivlen = s.ivlen := rfl
@[simp] theorem State.setSchedule_inlen (w : List Word) : (s.setSchedule w).inlen = s.inlen := rfl
@[simp] theorem State.setSchedule_outlen (w : List Word) : (s.setSchedule w).outlen = s.outlen := rfl
@[simp] theorem State.setSchedule_errcmd (w : List Word) : (s.setSchedule w).errcmd = s.errcmd := rfl
@[simp] theorem State.setSchedule_rks (w : List Word) : (s.setSchedule w).rks = rksFrom s.free w := rfl
@[simp] theorem State.setSchedule_ibuf (w : List Word) : (s.setSchedule w).ibuf = s.ibuf := rfl
@[simp] theorem State.setSchedule_obuf (w : List Word) : (s.setSchedule w).obuf = s.obuf := rfl
@[simp] theorem State.setSchedule_cfg (w : List Word) : (s.setSchedule w).cfg = s.cfg := rfl
@[simp] theorem State.setSchedule_host (w : List Word) : (s.setSchedule w).host = s.host := rfl
@[simp] theorem State.setSchedule_rdata (w : List Word) : (s.setSchedule w).rdata = s.rdata := rfl
@[simp] theorem State.setSchedule_free (w : List Word) : (s.setSchedule w).free = s.free + 1 := rfl

/-! ### dropSchedule -/

@[simp] theorem State.dropSchedule_key : s.dropSchedule.key = s.key := rfl
@[simp] theorem State.dropSchedule_iv : s.dropSchedule.iv = s.iv := rfl
@[simp] theorem State.dropSchedule_din : s.dropSchedule.din = s.din := rfl
@[simp] theorem State.dropSchedule_dout : s.dropSchedule.dout = s.dout := rfl
@[simp] theorem State.dropSchedule_prev : s.dropSchedule.prev = s.prev := rfl
@[simp] theorem State.dropSchedule_err : s.dropSchedule.err = s.err := rfl
@[simp] theorem State.dropSchedule_rkvalid : s.dropSchedule.rkvalid = false := rfl
@[simp] theorem State.dropSchedule_chainv : s.dropSchedule.chainv = s.chainv := rfl
@[simp] theorem State.dropSchedule_nk : s.dropSchedule.nk = 0 := rfl
@[simp] theorem State.dropSchedule_nr : s.dropSchedule.nr = 0 := rfl
@[simp] theorem State.dropSchedule_klen : s.dropSchedule.klen = s.klen := rfl
@[simp] theorem State.dropSchedule_ivlen : s.dropSchedule.ivlen = s.ivlen := rfl
@[simp] theorem State.dropSchedule_inlen : s.dropSchedule.inlen = s.inlen := rfl
@[simp] theorem State.dropSchedule_outlen : s.dropSchedule.outlen = s.outlen := rfl
@[simp] theorem State.dropSchedule_errcmd : s.dropSchedule.errcmd = s.errcmd := rfl
@[simp] theorem State.dropSchedule_rks : s.dropSchedule.rks = rksFrom s.free [] := rfl
@[simp] theorem State.dropSchedule_ibuf : s.dropSchedule.ibuf = s.ibuf := rfl
@[simp] theorem State.dropSchedule_obuf : s.dropSchedule.obuf = s.obuf := rfl
@[simp] theorem State.dropSchedule_cfg : s.dropSchedule.cfg = s.cfg := rfl
@[simp] theorem State.dropSchedule_host : s.dropSchedule.host = s.host := rfl
@[simp] theorem State.dropSchedule_rdata : s.dropSchedule.rdata = s.rdata := rfl
@[simp] theorem State.dropSchedule_free : s.dropSchedule.free = s.free + 1 := rfl

/-! ### openChain -/

@[simp] theorem State.openChain_key : s.openChain.key = s.key := rfl
@[simp] theorem State.openChain_iv : s.openChain.iv = s.iv := rfl
@[simp] theorem State.openChain_din : s.openChain.din = s.din := rfl
@[simp] theorem State.openChain_dout : s.openChain.dout = s.dout := rfl
@[simp] theorem State.openChain_prev : s.openChain.prev = s.iv := rfl
@[simp] theorem State.openChain_err : s.openChain.err = s.err := rfl
@[simp] theorem State.openChain_rkvalid : s.openChain.rkvalid = s.rkvalid := rfl
@[simp] theorem State.openChain_chainv : s.openChain.chainv = true := rfl
@[simp] theorem State.openChain_nk : s.openChain.nk = s.nk := rfl
@[simp] theorem State.openChain_nr : s.openChain.nr = s.nr := rfl
@[simp] theorem State.openChain_klen : s.openChain.klen = s.klen := rfl
@[simp] theorem State.openChain_ivlen : s.openChain.ivlen = 0 := rfl
@[simp] theorem State.openChain_inlen : s.openChain.inlen = s.inlen := rfl
@[simp] theorem State.openChain_outlen : s.openChain.outlen = s.outlen := rfl
@[simp] theorem State.openChain_errcmd : s.openChain.errcmd = s.errcmd := rfl
@[simp] theorem State.openChain_rks : s.openChain.rks = s.rks := rfl
@[simp] theorem State.openChain_ibuf : s.openChain.ibuf = s.ibuf := rfl
@[simp] theorem State.openChain_obuf : s.openChain.obuf = s.obuf := rfl
@[simp] theorem State.openChain_cfg : s.openChain.cfg = s.cfg := rfl
@[simp] theorem State.openChain_host : s.openChain.host = s.host := rfl
@[simp] theorem State.openChain_rdata : s.openChain.rdata = s.rdata := rfl
@[simp] theorem State.openChain_free : s.openChain.free = s.free := rfl

/-! ### closeChain -/

@[simp] theorem State.closeChain_key : s.closeChain.key = s.key := rfl
@[simp] theorem State.closeChain_iv : s.closeChain.iv = s.iv := rfl
@[simp] theorem State.closeChain_din : s.closeChain.din = s.din := rfl
@[simp] theorem State.closeChain_dout : s.closeChain.dout = s.dout := rfl
@[simp] theorem State.closeChain_prev : s.closeChain.prev = s.prev := rfl
@[simp] theorem State.closeChain_err : s.closeChain.err = s.err := rfl
@[simp] theorem State.closeChain_rkvalid : s.closeChain.rkvalid = s.rkvalid := rfl
@[simp] theorem State.closeChain_chainv : s.closeChain.chainv = false := rfl
@[simp] theorem State.closeChain_nk : s.closeChain.nk = s.nk := rfl
@[simp] theorem State.closeChain_nr : s.closeChain.nr = s.nr := rfl
@[simp] theorem State.closeChain_klen : s.closeChain.klen = s.klen := rfl
@[simp] theorem State.closeChain_ivlen : s.closeChain.ivlen = s.ivlen := rfl
@[simp] theorem State.closeChain_inlen : s.closeChain.inlen = s.inlen := rfl
@[simp] theorem State.closeChain_outlen : s.closeChain.outlen = s.outlen := rfl
@[simp] theorem State.closeChain_errcmd : s.closeChain.errcmd = s.errcmd := rfl
@[simp] theorem State.closeChain_rks : s.closeChain.rks = s.rks := rfl
@[simp] theorem State.closeChain_ibuf : s.closeChain.ibuf = s.ibuf := rfl
@[simp] theorem State.closeChain_obuf : s.closeChain.obuf = s.obuf := rfl
@[simp] theorem State.closeChain_cfg : s.closeChain.cfg = s.cfg := rfl
@[simp] theorem State.closeChain_host : s.closeChain.host = s.host := rfl
@[simp] theorem State.closeChain_rdata : s.closeChain.rdata = s.rdata := rfl
@[simp] theorem State.closeChain_free : s.closeChain.free = s.free := rfl

/-! ### endStream -/

@[simp] theorem State.endStream_key (out : List Byte) (b : Block) : (s.endStream out b).key = s.key := rfl
@[simp] theorem State.endStream_iv (out : List Byte) (b : Block) : (s.endStream out b).iv = s.iv := rfl
@[simp] theorem State.endStream_din (out : List Byte) (b : Block) : (s.endStream out b).din = s.din := rfl
@[simp] theorem State.endStream_dout (out : List Byte) (b : Block) : (s.endStream out b).dout = s.dout := rfl
@[simp] theorem State.endStream_prev (out : List Byte) (b : Block) : (s.endStream out b).prev = b := rfl
@[simp] theorem State.endStream_err (out : List Byte) (b : Block) : (s.endStream out b).err = s.err := rfl
@[simp] theorem State.endStream_rkvalid (out : List Byte) (b : Block) : (s.endStream out b).rkvalid = s.rkvalid := rfl
@[simp] theorem State.endStream_chainv (out : List Byte) (b : Block) : (s.endStream out b).chainv = false := rfl
@[simp] theorem State.endStream_nk (out : List Byte) (b : Block) : (s.endStream out b).nk = s.nk := rfl
@[simp] theorem State.endStream_nr (out : List Byte) (b : Block) : (s.endStream out b).nr = s.nr := rfl
@[simp] theorem State.endStream_klen (out : List Byte) (b : Block) : (s.endStream out b).klen = s.klen := rfl
@[simp] theorem State.endStream_ivlen (out : List Byte) (b : Block) : (s.endStream out b).ivlen = s.ivlen := rfl
@[simp] theorem State.endStream_inlen (out : List Byte) (b : Block) : (s.endStream out b).inlen = s.inlen := rfl
@[simp] theorem State.endStream_outlen (out : List Byte) (b : Block) : (s.endStream out b).outlen = BitVec.ofNat 32 out.length := rfl
@[simp] theorem State.endStream_errcmd (out : List Byte) (b : Block) : (s.endStream out b).errcmd = s.errcmd := rfl
@[simp] theorem State.endStream_rks (out : List Byte) (b : Block) : (s.endStream out b).rks = s.rks := rfl
@[simp] theorem State.endStream_ibuf (out : List Byte) (b : Block) : (s.endStream out b).ibuf = s.ibuf := rfl
@[simp] theorem State.endStream_obuf (out : List Byte) (b : Block) : (s.endStream out b).obuf = (Mem.unspecified s.free .obuf).writeBytes 0 out := rfl
@[simp] theorem State.endStream_cfg (out : List Byte) (b : Block) : (s.endStream out b).cfg = s.cfg := rfl
@[simp] theorem State.endStream_host (out : List Byte) (b : Block) : (s.endStream out b).host = s.host := rfl
@[simp] theorem State.endStream_rdata (out : List Byte) (b : Block) : (s.endStream out b).rdata = s.rdata := rfl
@[simp] theorem State.endStream_free (out : List Byte) (b : Block) : (s.endStream out b).free = s.free + 1 := rfl

/-! ### raise -/

@[simp] theorem State.raise_key (c : Reg32) (buffer : Bool) (e : ErrKind) : (s.raise c buffer e).key = s.key := rfl
@[simp] theorem State.raise_iv (c : Reg32) (buffer : Bool) (e : ErrKind) : (s.raise c buffer e).iv = s.iv := rfl
@[simp] theorem State.raise_din (c : Reg32) (buffer : Bool) (e : ErrKind) : (s.raise c buffer e).din = s.din := rfl
@[simp] theorem State.raise_dout (c : Reg32) (buffer : Bool) (e : ErrKind) : (s.raise c buffer e).dout = s.dout := rfl
@[simp] theorem State.raise_prev (c : Reg32) (buffer : Bool) (e : ErrKind) : (s.raise c buffer e).prev = s.prev := rfl
@[simp] theorem State.raise_err (c : Reg32) (buffer : Bool) (e : ErrKind) : (s.raise c buffer e).err = e := rfl
@[simp] theorem State.raise_rkvalid (c : Reg32) (buffer : Bool) (e : ErrKind) : (s.raise c buffer e).rkvalid = s.rkvalid := rfl
@[simp] theorem State.raise_chainv (c : Reg32) (buffer : Bool) (e : ErrKind) : (s.raise c buffer e).chainv = s.chainv := rfl
@[simp] theorem State.raise_nk (c : Reg32) (buffer : Bool) (e : ErrKind) : (s.raise c buffer e).nk = s.nk := rfl
@[simp] theorem State.raise_nr (c : Reg32) (buffer : Bool) (e : ErrKind) : (s.raise c buffer e).nr = s.nr := rfl
@[simp] theorem State.raise_klen (c : Reg32) (buffer : Bool) (e : ErrKind) : (s.raise c buffer e).klen = s.klen := rfl
@[simp] theorem State.raise_ivlen (c : Reg32) (buffer : Bool) (e : ErrKind) : (s.raise c buffer e).ivlen = s.ivlen := rfl
@[simp] theorem State.raise_inlen (c : Reg32) (buffer : Bool) (e : ErrKind) : (s.raise c buffer e).inlen = s.inlen := rfl
@[simp] theorem State.raise_outlen (c : Reg32) (buffer : Bool) (e : ErrKind) : (s.raise c buffer e).outlen = if buffer then 0 else s.outlen := rfl
@[simp] theorem State.raise_errcmd (c : Reg32) (buffer : Bool) (e : ErrKind) : (s.raise c buffer e).errcmd = c := rfl
@[simp] theorem State.raise_rks (c : Reg32) (buffer : Bool) (e : ErrKind) : (s.raise c buffer e).rks = s.rks := rfl
@[simp] theorem State.raise_ibuf (c : Reg32) (buffer : Bool) (e : ErrKind) : (s.raise c buffer e).ibuf = s.ibuf := rfl
@[simp] theorem State.raise_obuf (c : Reg32) (buffer : Bool) (e : ErrKind) : (s.raise c buffer e).obuf = s.obuf := rfl
@[simp] theorem State.raise_cfg (c : Reg32) (buffer : Bool) (e : ErrKind) : (s.raise c buffer e).cfg = s.cfg := rfl
@[simp] theorem State.raise_host (c : Reg32) (buffer : Bool) (e : ErrKind) : (s.raise c buffer e).host = s.host := rfl
@[simp] theorem State.raise_rdata (c : Reg32) (buffer : Bool) (e : ErrKind) : (s.raise c buffer e).rdata = s.rdata := rfl
@[simp] theorem State.raise_free (c : Reg32) (buffer : Bool) (e : ErrKind) : (s.raise c buffer e).free = s.free := rfl

/-! ### raiseIn -/

@[simp] theorem State.raiseIn_key (i : Instr) (e : ErrKind) : (s.raiseIn i e).key = s.key := rfl
@[simp] theorem State.raiseIn_iv (i : Instr) (e : ErrKind) : (s.raiseIn i e).iv = s.iv := rfl
@[simp] theorem State.raiseIn_din (i : Instr) (e : ErrKind) : (s.raiseIn i e).din = s.din := rfl
@[simp] theorem State.raiseIn_dout (i : Instr) (e : ErrKind) : (s.raiseIn i e).dout = s.dout := rfl
@[simp] theorem State.raiseIn_prev (i : Instr) (e : ErrKind) : (s.raiseIn i e).prev = s.prev := rfl
@[simp] theorem State.raiseIn_err (i : Instr) (e : ErrKind) : (s.raiseIn i e).err = e := rfl
@[simp] theorem State.raiseIn_rkvalid (i : Instr) (e : ErrKind) : (s.raiseIn i e).rkvalid = s.rkvalid := rfl
@[simp] theorem State.raiseIn_chainv (i : Instr) (e : ErrKind) : (s.raiseIn i e).chainv = s.chainv := rfl
@[simp] theorem State.raiseIn_nk (i : Instr) (e : ErrKind) : (s.raiseIn i e).nk = s.nk := rfl
@[simp] theorem State.raiseIn_nr (i : Instr) (e : ErrKind) : (s.raiseIn i e).nr = s.nr := rfl
@[simp] theorem State.raiseIn_klen (i : Instr) (e : ErrKind) : (s.raiseIn i e).klen = s.klen := rfl
@[simp] theorem State.raiseIn_ivlen (i : Instr) (e : ErrKind) : (s.raiseIn i e).ivlen = s.ivlen := rfl
@[simp] theorem State.raiseIn_inlen (i : Instr) (e : ErrKind) : (s.raiseIn i e).inlen = s.inlen := rfl
@[simp] theorem State.raiseIn_outlen (i : Instr) (e : ErrKind) : (s.raiseIn i e).outlen = if isBuffer i then 0 else s.outlen := rfl
@[simp] theorem State.raiseIn_errcmd (i : Instr) (e : ErrKind) : (s.raiseIn i e).errcmd = encode i := rfl
@[simp] theorem State.raiseIn_rks (i : Instr) (e : ErrKind) : (s.raiseIn i e).rks = s.rks := rfl
@[simp] theorem State.raiseIn_ibuf (i : Instr) (e : ErrKind) : (s.raiseIn i e).ibuf = s.ibuf := rfl
@[simp] theorem State.raiseIn_obuf (i : Instr) (e : ErrKind) : (s.raiseIn i e).obuf = s.obuf := rfl
@[simp] theorem State.raiseIn_cfg (i : Instr) (e : ErrKind) : (s.raiseIn i e).cfg = s.cfg := rfl
@[simp] theorem State.raiseIn_host (i : Instr) (e : ErrKind) : (s.raiseIn i e).host = s.host := rfl
@[simp] theorem State.raiseIn_rdata (i : Instr) (e : ErrKind) : (s.raiseIn i e).rdata = s.rdata := rfl
@[simp] theorem State.raiseIn_free (i : Instr) (e : ErrKind) : (s.raiseIn i e).free = s.free := rfl

/-! ### padDataError -/

@[simp] theorem State.padDataError_key (i : Instr) (e : ErrKind) : (s.padDataError i e).key = s.key := rfl
@[simp] theorem State.padDataError_iv (i : Instr) (e : ErrKind) : (s.padDataError i e).iv = s.iv := rfl
@[simp] theorem State.padDataError_din (i : Instr) (e : ErrKind) : (s.padDataError i e).din = s.din := rfl
@[simp] theorem State.padDataError_dout (i : Instr) (e : ErrKind) : (s.padDataError i e).dout = s.dout := rfl
@[simp] theorem State.padDataError_prev (i : Instr) (e : ErrKind) : (s.padDataError i e).prev = s.prev := rfl
@[simp] theorem State.padDataError_err (i : Instr) (e : ErrKind) : (s.padDataError i e).err = e := rfl
@[simp] theorem State.padDataError_rkvalid (i : Instr) (e : ErrKind) : (s.padDataError i e).rkvalid = s.rkvalid := rfl
@[simp] theorem State.padDataError_chainv (i : Instr) (e : ErrKind) : (s.padDataError i e).chainv = s.chainv := rfl
@[simp] theorem State.padDataError_nk (i : Instr) (e : ErrKind) : (s.padDataError i e).nk = s.nk := rfl
@[simp] theorem State.padDataError_nr (i : Instr) (e : ErrKind) : (s.padDataError i e).nr = s.nr := rfl
@[simp] theorem State.padDataError_klen (i : Instr) (e : ErrKind) : (s.padDataError i e).klen = s.klen := rfl
@[simp] theorem State.padDataError_ivlen (i : Instr) (e : ErrKind) : (s.padDataError i e).ivlen = s.ivlen := rfl
@[simp] theorem State.padDataError_inlen (i : Instr) (e : ErrKind) : (s.padDataError i e).inlen = s.inlen := rfl
@[simp] theorem State.padDataError_outlen (i : Instr) (e : ErrKind) : (s.padDataError i e).outlen = if isBuffer i then 0 else s.outlen := rfl
@[simp] theorem State.padDataError_errcmd (i : Instr) (e : ErrKind) : (s.padDataError i e).errcmd = encode i := rfl
@[simp] theorem State.padDataError_rks (i : Instr) (e : ErrKind) : (s.padDataError i e).rks = s.rks := rfl
@[simp] theorem State.padDataError_ibuf (i : Instr) (e : ErrKind) : (s.padDataError i e).ibuf = s.ibuf := rfl
@[simp] theorem State.padDataError_obuf (i : Instr) (e : ErrKind) : (s.padDataError i e).obuf = .unspecified s.free .obuf := rfl
@[simp] theorem State.padDataError_cfg (i : Instr) (e : ErrKind) : (s.padDataError i e).cfg = s.cfg := rfl
@[simp] theorem State.padDataError_host (i : Instr) (e : ErrKind) : (s.padDataError i e).host = s.host := rfl
@[simp] theorem State.padDataError_rdata (i : Instr) (e : ErrKind) : (s.padDataError i e).rdata = s.rdata := rfl
@[simp] theorem State.padDataError_free (i : Instr) (e : ErrKind) : (s.padDataError i e).free = s.free + 1 := rfl

/-! ### streamDataError_ecb -/

@[simp] theorem State.streamDataError_ecb_key (i : Instr) (e : ErrKind) : (s.streamDataError i .ecb e).key = s.key := rfl
@[simp] theorem State.streamDataError_ecb_iv (i : Instr) (e : ErrKind) : (s.streamDataError i .ecb e).iv = s.iv := rfl
@[simp] theorem State.streamDataError_ecb_din (i : Instr) (e : ErrKind) : (s.streamDataError i .ecb e).din = s.din := rfl
@[simp] theorem State.streamDataError_ecb_dout (i : Instr) (e : ErrKind) : (s.streamDataError i .ecb e).dout = s.dout := rfl
@[simp] theorem State.streamDataError_ecb_prev (i : Instr) (e : ErrKind) : (s.streamDataError i .ecb e).prev = s.prev := rfl
@[simp] theorem State.streamDataError_ecb_err (i : Instr) (e : ErrKind) : (s.streamDataError i .ecb e).err = e := rfl
@[simp] theorem State.streamDataError_ecb_rkvalid (i : Instr) (e : ErrKind) : (s.streamDataError i .ecb e).rkvalid = s.rkvalid := rfl
@[simp] theorem State.streamDataError_ecb_chainv (i : Instr) (e : ErrKind) : (s.streamDataError i .ecb e).chainv = false := rfl
@[simp] theorem State.streamDataError_ecb_nk (i : Instr) (e : ErrKind) : (s.streamDataError i .ecb e).nk = s.nk := rfl
@[simp] theorem State.streamDataError_ecb_nr (i : Instr) (e : ErrKind) : (s.streamDataError i .ecb e).nr = s.nr := rfl
@[simp] theorem State.streamDataError_ecb_klen (i : Instr) (e : ErrKind) : (s.streamDataError i .ecb e).klen = s.klen := rfl
@[simp] theorem State.streamDataError_ecb_ivlen (i : Instr) (e : ErrKind) : (s.streamDataError i .ecb e).ivlen = s.ivlen := rfl
@[simp] theorem State.streamDataError_ecb_inlen (i : Instr) (e : ErrKind) : (s.streamDataError i .ecb e).inlen = s.inlen := rfl
@[simp] theorem State.streamDataError_ecb_outlen (i : Instr) (e : ErrKind) : (s.streamDataError i .ecb e).outlen = if isBuffer i then 0 else s.outlen := rfl
@[simp] theorem State.streamDataError_ecb_errcmd (i : Instr) (e : ErrKind) : (s.streamDataError i .ecb e).errcmd = encode i := rfl
@[simp] theorem State.streamDataError_ecb_rks (i : Instr) (e : ErrKind) : (s.streamDataError i .ecb e).rks = s.rks := rfl
@[simp] theorem State.streamDataError_ecb_ibuf (i : Instr) (e : ErrKind) : (s.streamDataError i .ecb e).ibuf = s.ibuf := rfl
@[simp] theorem State.streamDataError_ecb_obuf (i : Instr) (e : ErrKind) : (s.streamDataError i .ecb e).obuf = .unspecified s.free .obuf := rfl
@[simp] theorem State.streamDataError_ecb_cfg (i : Instr) (e : ErrKind) : (s.streamDataError i .ecb e).cfg = s.cfg := rfl
@[simp] theorem State.streamDataError_ecb_host (i : Instr) (e : ErrKind) : (s.streamDataError i .ecb e).host = s.host := rfl
@[simp] theorem State.streamDataError_ecb_rdata (i : Instr) (e : ErrKind) : (s.streamDataError i .ecb e).rdata = s.rdata := rfl
@[simp] theorem State.streamDataError_ecb_free (i : Instr) (e : ErrKind) : (s.streamDataError i .ecb e).free = s.free + 1 := rfl

/-! ### streamDataError_cbc -/

@[simp] theorem State.streamDataError_cbc_key (i : Instr) (e : ErrKind) : (s.streamDataError i .cbc e).key = s.key := rfl
@[simp] theorem State.streamDataError_cbc_iv (i : Instr) (e : ErrKind) : (s.streamDataError i .cbc e).iv = s.iv := rfl
@[simp] theorem State.streamDataError_cbc_din (i : Instr) (e : ErrKind) : (s.streamDataError i .cbc e).din = s.din := rfl
@[simp] theorem State.streamDataError_cbc_dout (i : Instr) (e : ErrKind) : (s.streamDataError i .cbc e).dout = s.dout := rfl
@[simp] theorem State.streamDataError_cbc_prev (i : Instr) (e : ErrKind) : (s.streamDataError i .cbc e).prev = freeBlock (s.free + 1) .prev := rfl
@[simp] theorem State.streamDataError_cbc_err (i : Instr) (e : ErrKind) : (s.streamDataError i .cbc e).err = e := rfl
@[simp] theorem State.streamDataError_cbc_rkvalid (i : Instr) (e : ErrKind) : (s.streamDataError i .cbc e).rkvalid = s.rkvalid := rfl
@[simp] theorem State.streamDataError_cbc_chainv (i : Instr) (e : ErrKind) : (s.streamDataError i .cbc e).chainv = false := rfl
@[simp] theorem State.streamDataError_cbc_nk (i : Instr) (e : ErrKind) : (s.streamDataError i .cbc e).nk = s.nk := rfl
@[simp] theorem State.streamDataError_cbc_nr (i : Instr) (e : ErrKind) : (s.streamDataError i .cbc e).nr = s.nr := rfl
@[simp] theorem State.streamDataError_cbc_klen (i : Instr) (e : ErrKind) : (s.streamDataError i .cbc e).klen = s.klen := rfl
@[simp] theorem State.streamDataError_cbc_ivlen (i : Instr) (e : ErrKind) : (s.streamDataError i .cbc e).ivlen = s.ivlen := rfl
@[simp] theorem State.streamDataError_cbc_inlen (i : Instr) (e : ErrKind) : (s.streamDataError i .cbc e).inlen = s.inlen := rfl
@[simp] theorem State.streamDataError_cbc_outlen (i : Instr) (e : ErrKind) : (s.streamDataError i .cbc e).outlen = if isBuffer i then 0 else s.outlen := rfl
@[simp] theorem State.streamDataError_cbc_errcmd (i : Instr) (e : ErrKind) : (s.streamDataError i .cbc e).errcmd = encode i := rfl
@[simp] theorem State.streamDataError_cbc_rks (i : Instr) (e : ErrKind) : (s.streamDataError i .cbc e).rks = s.rks := rfl
@[simp] theorem State.streamDataError_cbc_ibuf (i : Instr) (e : ErrKind) : (s.streamDataError i .cbc e).ibuf = s.ibuf := rfl
@[simp] theorem State.streamDataError_cbc_obuf (i : Instr) (e : ErrKind) : (s.streamDataError i .cbc e).obuf = .unspecified s.free .obuf := rfl
@[simp] theorem State.streamDataError_cbc_cfg (i : Instr) (e : ErrKind) : (s.streamDataError i .cbc e).cfg = s.cfg := rfl
@[simp] theorem State.streamDataError_cbc_host (i : Instr) (e : ErrKind) : (s.streamDataError i .cbc e).host = s.host := rfl
@[simp] theorem State.streamDataError_cbc_rdata (i : Instr) (e : ErrKind) : (s.streamDataError i .cbc e).rdata = s.rdata := rfl
@[simp] theorem State.streamDataError_cbc_free (i : Instr) (e : ErrKind) : (s.streamDataError i .cbc e).free = s.free + 2 := rfl

/-! ### acknowledge -/

@[simp] theorem State.acknowledge_key : s.acknowledge.key = s.key := rfl
@[simp] theorem State.acknowledge_iv : s.acknowledge.iv = s.iv := rfl
@[simp] theorem State.acknowledge_din : s.acknowledge.din = s.din := rfl
@[simp] theorem State.acknowledge_dout : s.acknowledge.dout = s.dout := rfl
@[simp] theorem State.acknowledge_prev : s.acknowledge.prev = s.prev := rfl
@[simp] theorem State.acknowledge_err : s.acknowledge.err = .noError := rfl
@[simp] theorem State.acknowledge_rkvalid : s.acknowledge.rkvalid = s.rkvalid := rfl
@[simp] theorem State.acknowledge_chainv : s.acknowledge.chainv = s.chainv := rfl
@[simp] theorem State.acknowledge_nk : s.acknowledge.nk = s.nk := rfl
@[simp] theorem State.acknowledge_nr : s.acknowledge.nr = s.nr := rfl
@[simp] theorem State.acknowledge_klen : s.acknowledge.klen = s.klen := rfl
@[simp] theorem State.acknowledge_ivlen : s.acknowledge.ivlen = s.ivlen := rfl
@[simp] theorem State.acknowledge_inlen : s.acknowledge.inlen = s.inlen := rfl
@[simp] theorem State.acknowledge_outlen : s.acknowledge.outlen = s.outlen := rfl
@[simp] theorem State.acknowledge_errcmd : s.acknowledge.errcmd = 0 := rfl
@[simp] theorem State.acknowledge_rks : s.acknowledge.rks = s.rks := rfl
@[simp] theorem State.acknowledge_ibuf : s.acknowledge.ibuf = s.ibuf := rfl
@[simp] theorem State.acknowledge_obuf : s.acknowledge.obuf = s.obuf := rfl
@[simp] theorem State.acknowledge_cfg : s.acknowledge.cfg = s.cfg := rfl
@[simp] theorem State.acknowledge_host : s.acknowledge.host = s.host := rfl
@[simp] theorem State.acknowledge_rdata : s.acknowledge.rdata = s.rdata := rfl
@[simp] theorem State.acknowledge_free : s.acknowledge.free = s.free := rfl

/-! ### resetAll -/

@[simp] theorem State.resetAll_key : s.resetAll.key = Vector.ofFn fun j : Fin 8 => freeWord s.free .key j.val := rfl
@[simp] theorem State.resetAll_iv : s.resetAll.iv = freeBlock s.free .iv := rfl
@[simp] theorem State.resetAll_din : s.resetAll.din = freeBlock s.free .din := rfl
@[simp] theorem State.resetAll_dout : s.resetAll.dout = freeBlock s.free .dout := rfl
@[simp] theorem State.resetAll_prev : s.resetAll.prev = freeBlock s.free .prev := rfl
@[simp] theorem State.resetAll_err : s.resetAll.err = .noError := rfl
@[simp] theorem State.resetAll_rkvalid : s.resetAll.rkvalid = false := rfl
@[simp] theorem State.resetAll_chainv : s.resetAll.chainv = false := rfl
@[simp] theorem State.resetAll_nk : s.resetAll.nk = 0 := rfl
@[simp] theorem State.resetAll_nr : s.resetAll.nr = 0 := rfl
@[simp] theorem State.resetAll_klen : s.resetAll.klen = 0 := rfl
@[simp] theorem State.resetAll_ivlen : s.resetAll.ivlen = 0 := rfl
@[simp] theorem State.resetAll_inlen : s.resetAll.inlen = 0 := rfl
@[simp] theorem State.resetAll_outlen : s.resetAll.outlen = 0 := rfl
@[simp] theorem State.resetAll_errcmd : s.resetAll.errcmd = 0 := rfl
@[simp] theorem State.resetAll_rks : s.resetAll.rks = rksFrom s.free [] := rfl
@[simp] theorem State.resetAll_ibuf : s.resetAll.ibuf = .unspecified s.free .ibuf := rfl
@[simp] theorem State.resetAll_obuf : s.resetAll.obuf = .unspecified s.free .obuf := rfl
@[simp] theorem State.resetAll_cfg : s.resetAll.cfg = s.cfg := rfl
@[simp] theorem State.resetAll_host : s.resetAll.host = s.host := rfl
@[simp] theorem State.resetAll_rdata : s.resetAll.rdata = s.rdata := rfl
@[simp] theorem State.resetAll_free : s.resetAll.free = s.free + 1 := rfl

/-! ### hostRead -/

@[simp] theorem State.hostRead_key (width : Nat) (off : BitVec 20) : (s.hostRead width off).key = s.key := rfl
@[simp] theorem State.hostRead_iv (width : Nat) (off : BitVec 20) : (s.hostRead width off).iv = s.iv := rfl
@[simp] theorem State.hostRead_din (width : Nat) (off : BitVec 20) : (s.hostRead width off).din = s.din := rfl
@[simp] theorem State.hostRead_dout (width : Nat) (off : BitVec 20) : (s.hostRead width off).dout = s.dout := rfl
@[simp] theorem State.hostRead_prev (width : Nat) (off : BitVec 20) : (s.hostRead width off).prev = s.prev := rfl
@[simp] theorem State.hostRead_err (width : Nat) (off : BitVec 20) : (s.hostRead width off).err = s.err := rfl
@[simp] theorem State.hostRead_rkvalid (width : Nat) (off : BitVec 20) : (s.hostRead width off).rkvalid = s.rkvalid := rfl
@[simp] theorem State.hostRead_chainv (width : Nat) (off : BitVec 20) : (s.hostRead width off).chainv = s.chainv := rfl
@[simp] theorem State.hostRead_nk (width : Nat) (off : BitVec 20) : (s.hostRead width off).nk = s.nk := rfl
@[simp] theorem State.hostRead_nr (width : Nat) (off : BitVec 20) : (s.hostRead width off).nr = s.nr := rfl
@[simp] theorem State.hostRead_klen (width : Nat) (off : BitVec 20) : (s.hostRead width off).klen = s.klen := rfl
@[simp] theorem State.hostRead_ivlen (width : Nat) (off : BitVec 20) : (s.hostRead width off).ivlen = s.ivlen := rfl
@[simp] theorem State.hostRead_inlen (width : Nat) (off : BitVec 20) : (s.hostRead width off).inlen = s.inlen := rfl
@[simp] theorem State.hostRead_outlen (width : Nat) (off : BitVec 20) : (s.hostRead width off).outlen = s.outlen := rfl
@[simp] theorem State.hostRead_errcmd (width : Nat) (off : BitVec 20) : (s.hostRead width off).errcmd = s.errcmd := rfl
@[simp] theorem State.hostRead_rks (width : Nat) (off : BitVec 20) : (s.hostRead width off).rks = s.rks := rfl
@[simp] theorem State.hostRead_ibuf (width : Nat) (off : BitVec 20) : (s.hostRead width off).ibuf = s.ibuf := rfl
@[simp] theorem State.hostRead_obuf (width : Nat) (off : BitVec 20) : (s.hostRead width off).obuf = s.obuf := rfl
@[simp] theorem State.hostRead_cfg (width : Nat) (off : BitVec 20) : (s.hostRead width off).cfg = s.cfg := rfl
@[simp] theorem State.hostRead_host (width : Nat) (off : BitVec 20) : (s.hostRead width off).host = s.host := rfl
@[simp] theorem State.hostRead_rdata (width : Nat) (off : BitVec 20) : (s.hostRead width off).rdata = s.portRead (portOf s.cfg.bufcap width off) := rfl
@[simp] theorem State.hostRead_free (width : Nat) (off : BitVec 20) : (s.hostRead width off).free = s.free + 1 := rfl

end Sys2Proof.Machine
end

