-- ==== Sys2Proof/Laws/Mem.lean ====
section
/-! SUPPORT. The laws of the buffers: a read after a write, and that every operation keeps the canonical form. -/

namespace Sys2Proof.Machine

/-! ### Lists of cells -/

theorem risingFrom_mono {lo lo' : Nat} {l : List Host.Cell} (h : lo' ≤ lo) (hl : risingFrom lo l = true) :
    risingFrom lo' l = true := by
  cases l with
  | nil => rfl
  | cons c rest =>
    obtain ⟨x, v⟩ := c
    simp only [risingFrom, Bool.and_eq_true, decide_eq_true_eq] at hl ⊢
    exact ⟨by omega, hl.2⟩

/-- A rising list lists nothing below its bound. -/
theorem cellAt_below {lo a : Nat} {l : List Host.Cell} (h : a < lo) (hl : risingFrom lo l = true) :
    cellAt a l = none := by
  induction l generalizing lo with
  | nil => rfl
  | cons c rest ih =>
    obtain ⟨x, v⟩ := c
    simp only [risingFrom, Bool.and_eq_true, decide_eq_true_eq] at hl
    rw [cellAt, if_neg (by omega)]
    exact ih (lo := x + 1) (by omega) hl.2

theorem cellAt_insertCell (a b : Nat) (v : Byte) (l : List Host.Cell) :
    cellAt a (insertCell b v l) = if a = b then some v else cellAt a l := by
  induction l with
  | nil => simp only [insertCell, cellAt]
  | cons c rest ih =>
    obtain ⟨x, u⟩ := c
    simp only [insertCell]
    split
    · simp only [cellAt]
    · split
      · subst_vars
        simp only [cellAt]
        split <;> rfl
      · simp only [cellAt, ih]
        split <;> split <;> first | rfl | omega

theorem cellAt_eraseCell {lo : Nat} (a b : Nat) {l : List Host.Cell} (hl : risingFrom lo l = true) :
    cellAt a (eraseCell b l) = if a = b then none else cellAt a l := by
  induction l generalizing lo with
  | nil => simp [eraseCell, cellAt]
  | cons c rest ih =>
    obtain ⟨x, u⟩ := c
    simp only [risingFrom, Bool.and_eq_true, decide_eq_true_eq] at hl
    simp only [eraseCell]
    split
    · subst_vars
      split
      · subst_vars
        exact cellAt_below (Nat.lt_succ_self _) hl.2
      · rw [cellAt, if_neg ‹_›]
    · simp only [cellAt, ih hl.2]
      split <;> split <;> first | rfl | omega

theorem risingFrom_insertCell {lo b : Nat} {v : Byte} {l : List Host.Cell} (hb : lo ≤ b)
    (hl : risingFrom lo l = true) : risingFrom lo (insertCell b v l) = true := by
  induction l generalizing lo with
  | nil => simpa [insertCell, risingFrom] using hb
  | cons c rest ih =>
    obtain ⟨x, u⟩ := c
    simp only [risingFrom, Bool.and_eq_true, decide_eq_true_eq] at hl
    simp only [insertCell]
    split
    · simp only [risingFrom, Bool.and_eq_true, decide_eq_true_eq]
      exact ⟨hb, by omega, hl.2⟩
    · split
      · subst_vars
        simp only [risingFrom, Bool.and_eq_true, decide_eq_true_eq]
        exact ⟨hb, hl.2⟩
      · simp only [risingFrom, Bool.and_eq_true, decide_eq_true_eq]
        exact ⟨hl.1, ih (by omega) hl.2⟩

theorem risingFrom_eraseCell {lo b : Nat} {l : List Host.Cell} (hl : risingFrom lo l = true) :
    risingFrom lo (eraseCell b l) = true := by
  induction l generalizing lo with
  | nil => rfl
  | cons c rest ih =>
    obtain ⟨x, u⟩ := c
    simp only [risingFrom, Bool.and_eq_true, decide_eq_true_eq] at hl
    simp only [eraseCell]
    split
    · exact risingFrom_mono (by omega) hl.2
    · simp only [risingFrom, Bool.and_eq_true, decide_eq_true_eq]
      exact ⟨hl.1, ih hl.2⟩

theorem mem_insertCell {c : Host.Cell} {b : Nat} {v : Byte} {l : List Host.Cell}
    (h : c ∈ insertCell b v l) : c = (b, v) ∨ c ∈ l := by
  induction l with
  | nil => simpa [insertCell] using h
  | cons d rest ih =>
    obtain ⟨x, u⟩ := d
    simp only [insertCell] at h
    split at h
    · simpa using h
    · split at h
      · rcases List.mem_cons.1 h with h | h
        · exact .inl h
        · exact .inr (List.mem_cons_of_mem _ h)
      · rcases List.mem_cons.1 h with h | h
        · exact .inr (h ▸ List.mem_cons_self)
        · exact (ih h).imp_right (List.mem_cons_of_mem _)

theorem mem_eraseCell {c : Host.Cell} {b : Nat} {l : List Host.Cell} (h : c ∈ eraseCell b l) : c ∈ l := by
  induction l with
  | nil => exact h
  | cons d rest ih =>
    obtain ⟨x, u⟩ := d
    simp only [eraseCell] at h
    split at h
    · exact List.mem_cons_of_mem _ h
    · rcases List.mem_cons.1 h with h | h
      · exact h ▸ List.mem_cons_self
      · exact List.mem_cons_of_mem _ (ih h)

/-! ### One byte -/

@[simp] theorem Mem.write_filler (m : Mem) (a : Nat) (b : Byte) : (m.write a b).filler = m.filler := by
  unfold Mem.write; split <;> rfl

theorem Mem.wf_rising {m : Mem} (h : m.wf = true) : risingFrom 0 m.cells = true := by
  simp only [Mem.wf, Bool.and_eq_true] at h; exact h.1

/-- A write of the byte that an unlisted one reads as lists nothing. -/
theorem Mem.write_erases {m : Mem} {b : Byte} (h : m.filler = .zeros ∧ b = 0) (a : Nat) :
    m.write a b = { m with cells := eraseCell a m.cells } := if_pos h

/-- Any other write lists the byte. -/
theorem Mem.write_lists {m : Mem} {b : Byte} (h : ¬ (m.filler = .zeros ∧ b = 0)) (a : Nat) :
    m.write a b = { m with cells := insertCell a b m.cells } := if_neg h

/-- A read after a write, at the same index or another. -/
theorem Mem.read_write {m : Mem} (h : m.wf = true) (a b : Nat) (v : Byte) :
    (m.write b v).read a = if a = b then v else m.read a := by
  by_cases hz : m.filler = .zeros ∧ v = 0
  · rw [Mem.write_erases hz]
    rcases eq_or_ne a b with rfl | hab
    · simp [Mem.read, cellAt_eraseCell a a (Mem.wf_rising h), hz.1, hz.2, Filler.byte]
    · simp [Mem.read, cellAt_eraseCell a b (Mem.wf_rising h), hab]
  · rw [Mem.write_lists hz]
    by_cases hab : a = b <;> simp [Mem.read, cellAt_insertCell, hab]

/-- A write keeps the canonical form. -/
theorem Mem.write_wf {m : Mem} (h : m.wf = true) (a : Nat) (b : Byte) : (m.write a b).wf = true := by
  simp only [Mem.wf, Bool.and_eq_true, Bool.or_eq_true, decide_eq_true_eq] at h
  unfold Mem.write
  split
  · rename_i hz
    simp only [Mem.wf, Bool.and_eq_true, Bool.or_eq_true, decide_eq_true_eq]
    refine ⟨risingFrom_eraseCell h.1, h.2.imp_right fun hall => ?_⟩
    rw [List.all_eq_true] at hall ⊢
    exact fun c hc => hall c (mem_eraseCell hc)
  · rename_i hz
    simp only [Mem.wf, Bool.and_eq_true, Bool.or_eq_true, decide_eq_true_eq]
    refine ⟨risingFrom_insertCell (Nat.zero_le _) h.1, ?_⟩
    by_cases hf : m.filler = .zeros
    · refine .inr ?_
      rw [List.all_eq_true]
      intro c hc
      rcases mem_insertCell hc with rfl | hc
      · simpa using fun hb => hz ⟨hf, hb⟩
      · exact List.all_eq_true.1 (h.2.resolve_left fun hn => hn hf) c hc
    · exact .inl hf

/-- A write lists no other byte than the one it writes. -/
theorem Mem.mem_write {m : Mem} {a : Nat} {b : Byte} {c : Host.Cell} (h : c ∈ (m.write a b).cells) :
    c.1 = a ∨ c ∈ m.cells := by
  unfold Mem.write at h
  split at h
  · exact .inr (mem_eraseCell h)
  · exact (mem_insertCell h).imp_left fun e => by rw [e]

/-! ### Sequences of bytes -/

@[simp] theorem Mem.readBytes_length (m : Mem) (a n : Nat) : (m.readBytes a n).length = n := by
  induction n generalizing a with
  | zero => rfl
  | succ n ih => simp [Mem.readBytes, ih]

theorem Mem.readBytes_congr {m m' : Mem} {a n : Nat} (h : ∀ k, k < n → m.read (a + k) = m'.read (a + k)) :
    m.readBytes a n = m'.readBytes a n := by
  induction n generalizing a with
  | zero => rfl
  | succ n ih =>
    simp only [Mem.readBytes]
    rw [show m.read a = m'.read a from h 0 (Nat.succ_pos n),
      ih fun k hk => by simpa [Nat.add_assoc, Nat.add_comm 1] using h (k + 1) (by omega)]

theorem Mem.readBytes_getD (m : Mem) (a n i : Nat) (d : Byte) (h : i < n) :
    (m.readBytes a n).getD i d = m.read (a + i) := by
  induction n generalizing a i with
  | zero => omega
  | succ n ih =>
    cases i with
    | zero => rfl
    | succ i =>
      simp only [Mem.readBytes, List.getD_cons_succ]
      rw [ih (a + 1) i (by omega)]
      congr 1
      omega

theorem Mem.writeBytes_wf {m : Mem} (h : m.wf = true) (a : Nat) (l : List Byte) : (m.writeBytes a l).wf = true := by
  induction l generalizing m a with
  | nil => exact h
  | cons b rest ih => exact ih (Mem.write_wf h a b) (a + 1)

@[simp] theorem Mem.writeBytes_filler (m : Mem) (a : Nat) (l : List Byte) :
    (m.writeBytes a l).filler = m.filler := by
  induction l generalizing m a with
  | nil => rfl
  | cons b rest ih => simp [Mem.writeBytes, ih]

theorem Mem.mem_writeBytes {m : Mem} {a : Nat} {l : List Byte} {c : Host.Cell}
    (h : c ∈ (m.writeBytes a l).cells) : (a ≤ c.1 ∧ c.1 < a + l.length) ∨ c ∈ m.cells := by
  induction l generalizing m a with
  | nil => exact .inr h
  | cons b rest ih =>
    simp only [List.length_cons]
    rcases ih h with h | h
    · exact .inl (by omega)
    · exact (Mem.mem_write h).imp_left fun e => by omega

/-- Reading one byte after a sequence was written. -/
theorem Mem.read_writeBytes {m : Mem} (h : m.wf = true) (a k : Nat) (l : List Byte) :
    (m.writeBytes a l).read k = if a ≤ k ∧ k < a + l.length then l.getD (k - a) 0 else m.read k := by
  induction l generalizing m a with
  | nil =>
    simp only [Mem.writeBytes, List.length_nil]
    rw [if_neg (by omega)]
  | cons b rest ih =>
    simp only [Mem.writeBytes, List.length_cons]
    rw [ih (Mem.write_wf h a b) (a + 1), Mem.read_write h]
    by_cases h1 : k = a
    · subst h1
      rw [if_neg (by omega), if_pos rfl, if_pos (by omega)]
      simp
    · by_cases h2 : a + 1 ≤ k ∧ k < a + 1 + rest.length
      · rw [if_pos h2, if_pos (by omega), show k - a = k - (a + 1) + 1 by omega, List.getD_cons_succ]
      · rw [if_neg h2, if_neg h1, if_neg (by omega)]

/-- A sequence written is read back. -/
theorem Mem.readBytes_writeBytes {m : Mem} (h : m.wf = true) (a : Nat) (l : List Byte) :
    (m.writeBytes a l).readBytes a l.length = l := by
  refine List.ext_getElem (by simp) fun i h1 h2 => ?_
  have hi : i < l.length := h2
  have := Mem.readBytes_getD (m.writeBytes a l) a l.length i 0 hi
  rw [Mem.read_writeBytes h, if_pos (by omega), show a + i - a = i by omega] at this
  simpa [List.getD_eq_getElem?_getD, h1, h2] using this

@[simp] theorem Mem.unspecified_wf (draw : Nat) (site : FreeSite) : (Mem.unspecified draw site).wf = true := rfl

/-- The buffers of the reset state are in canonical form. -/
theorem reset_buffers_wf : State.reset.ibuf.wf = true ∧ State.reset.obuf.wf = true := ⟨rfl, rfl⟩

end Sys2Proof.Machine
end

