-- ==== Sys2Proof/Laws/Schedule.lean ====
section
/-! SUPPORT. What the key scheduler and ensure_schedule can do, once for all commands (41_key_schedule.md R83 to R86). -/

namespace Sys2Proof.Machine

/-! ### Expansion -/

theorem keyLengthLegal_iff {n : Nat} : keyLengthLegal n = true ↔ n = 16 ∨ n = 24 ∨ n = 32 := by
  simp [keyLengthLegal, or_assoc]

@[simp] theorem wordsOfBytes_length (l : List Byte) (n : Nat) : (wordsOfBytes l n).length = n := by
  induction n generalizing l with
  | zero => rfl
  | succ n ih => simp [wordsOfBytes, ih]

@[simp] theorem expandFrom_length (nk i : Nat) (w : List Word) (n : Nat) :
    (expandFrom nk i w n).length = w.length + n := by
  induction n generalizing i w with
  | zero => rfl
  | succ n ih => simp [expandFrom, ih]; omega

/-- Everything `expand` can answer. -/
theorem expand_cases (key : List Byte) :
    (keyLengthLegal key.length = true ∧ ∃ w, expand key = .ok w ∧ w.length = 4 * (key.length / 4 + 6 + 1)) ∨
    (keyLengthLegal key.length = false ∧ expand key = .error .invalidKeySize) := by
  unfold expand
  cases h : keyLengthLegal key.length with
  | false => exact .inr ⟨rfl, rfl⟩
  | true => exact .inl ⟨rfl, _, rfl, by simp; omega⟩

theorem expand_length {key : List Byte} {w : List Word} (h : expand key = .ok w) :
    keyLengthLegal key.length = true ∧ w.length = 4 * (key.length / 4 + 6 + 1) := by
  rcases expand_cases key with ⟨h1, v, h2, h3⟩ | ⟨_, h2⟩ <;> rw [h] at h2 <;> cases h2
  exact ⟨h1, h3⟩

/-- Words already there stay (R87 d). -/
theorem expandFrom_getD_old (nk : Nat) {i j : Nat} {w : List Word} (hw : w.length = i) (hj : j < i) (n : Nat) :
    (expandFrom nk i w n).getD j .zero = w.getD j .zero := by
  induction n generalizing i w with
  | zero => rfl
  | succ n ih =>
    rw [expandFrom, ih (i := i + 1) (by simp [hw]) (by omega), List.getD_append _ _ _ _ (by omega)]

/-- Each further word is the next one after those before it (R83). -/
theorem expandFrom_getD_new {nk i j : Nat} {w : List Word} (hw : w.length = i) (hnk : 0 < nk) (hi : nk ≤ i)
    {n : Nat} (hij : i ≤ j) (hj : j < i + n) :
    (expandFrom nk i w n).getD j .zero = nextWord nk j (expandFrom nk i w n) := by
  induction n generalizing i w with
  | zero => omega
  | succ n ih =>
    have hlen : (w ++ [nextWord nk i w]).length = i + 1 := by simp [hw]
    rw [expandFrom]
    by_cases h : j = i
    · subst h
      have old : ∀ k, k < j →
          (expandFrom nk (j + 1) (w ++ [nextWord nk j w]) n).getD k .zero = w.getD k .zero := fun k hk => by
        rw [expandFrom_getD_old nk hlen (by omega), List.getD_append _ _ _ _ (by omega)]
      rw [expandFrom_getD_old nk hlen (Nat.lt_succ_self _), List.getD_append_right _ _ _ _ (by omega), hw,
        Nat.sub_self, List.getD_cons_zero]
      conv_rhs => rw [nextWord, old _ (by omega), old _ (by omega)]
      rw [nextWord]
    · exact ih hlen (by omega) (by omega) (by omega)

/-! ### The register form -/

theorem keyBytes_length {s : State} (h : s.klen.toNat ≤ 32) : s.keyBytes.length = s.klen.toNat := by
  have h8 : s.key.toList.length = 8 := by simp
  have hb : ∀ l : List Word, (l.flatMap Word.bytes).length = 4 * l.length := by
    intro l
    induction l with
    | nil => rfl
    | cons w l ih => simp [Word.bytes, ih]; omega
  simp [State.keyBytes, hb, h8]
  omega

theorem legal_le {n : Nat} (h : keyLengthLegal n = true) : n ≤ 32 := by
  rcases keyLengthLegal_iff.1 h with h | h | h <;> omega

/-- The expansion of the key, when `KLEN` is legal. -/
theorem expand_keyBytes {s : State} (h : keyLengthLegal s.klen.toNat = true) :
    expand s.keyBytes = .ok s.expansion ∧ s.expansion.length = 4 * (s.klen.toNat / 4 + 6 + 1) := by
  have hl := keyBytes_length (legal_le h)
  rcases expand_cases s.keyBytes with ⟨_, w, hw, hlen⟩ | ⟨hn, _⟩
  · rw [State.expansion, hw, hl] at *
    exact ⟨rfl, hlen⟩
  · rw [hl, h] at hn; cases hn

/-- Everything `expandKey` can answer (R85). -/
theorem expandKey_eq (s : State) : s.expandKey =
    if keyLengthLegal s.klen.toNat then .ok (s.setSchedule s.expansion) else .error .invalidKeySize := by
  unfold State.expandKey
  split
  · rename_i h
    rw [(expand_keyBytes h).1]
  · rfl

theorem rksFrom_toList_take (draw : Nat) (w : List Word) (h : w.length ≤ 60) :
    (rksFrom draw w).toList.take w.length = w := by
  refine List.ext_getElem (by simp [h]) fun i h1 h2 => ?_
  have : i < w.length := h2
  simp [rksFrom, this]

theorem nk_toNat {n : Nat} (h : keyLengthLegal n = true) :
    (BitVec.ofNat 4 (n / 4)).toNat = n / 4 ∧ (BitVec.ofNat 4 (n / 4 + 6)).toNat = n / 4 + 6 := by
  rcases keyLengthLegal_iff.1 h with rfl | rfl | rfl <;> decide

/-- What `ensure_schedule` does when it does not raise: nothing when `RKVALID` is 1, else it expands the key. -/
theorem setSchedule_ensured {s : State} (hv : s.rkvalid = false) (h : keyLengthLegal s.klen.toNat = true) :
    ScheduleEnsured s (s.setSchedule s.expansion) ∧ (s.setSchedule s.expansion).schedule = s.expansion := by
  have hs : (s.setSchedule s.expansion).schedule = s.expansion := by
    have hl := (expand_keyBytes h).2
    unfold State.schedule
    rw [State.setSchedule_nr, (nk_toNat h).2, ← hl, State.setSchedule_rks]
    exact rksFrom_toList_take _ _ (by have := legal_le h; omega)
  refine ⟨⟨rfl, fun h' => ?_, fun _ => ⟨(nk_toNat h).1, (nk_toNat h).2, hs⟩⟩, hs⟩
  rw [hv] at h'; cases h'

/-- Everything `ensure_schedule` can answer (R86). -/
theorem ensureSchedule_cases (s : State) :
    (s.KeyReady ∧ ∃ t, s.ensureSchedule = .ok t ∧ ScheduleEnsured s t ∧ t.schedule = s.activeSchedule ∧
      t = { s with rks := t.rks, nk := t.nk, nr := t.nr, rkvalid := t.rkvalid, free := t.free }) ∨
    (¬ s.KeyReady ∧ s.ensureSchedule = .error .invalidKeySize) := by
  unfold State.ensureSchedule State.KeyReady State.activeSchedule
  cases hv : s.rkvalid with
  | true =>
    exact .inl ⟨.inl rfl, s, rfl, ⟨hv, fun _ => ⟨rfl, rfl, rfl⟩, fun h => by rw [hv] at h; cases h⟩, rfl, rfl⟩
  | false =>
    rw [if_neg (by simp), expandKey_eq]
    cases h : keyLengthLegal s.klen.toNat with
    | true => exact .inl ⟨.inr rfl, _, rfl, (setSchedule_ensured hv h).1, by simp [(setSchedule_ensured hv h).2], rfl⟩
    | false => exact .inr ⟨by simp, rfl⟩

theorem ensureSchedule_ready {s : State} (h : s.KeyReady) :
    ∃ t, s.ensureSchedule = .ok t ∧ ScheduleEnsured s t ∧ t.schedule = s.activeSchedule ∧
      t = { s with rks := t.rks, nk := t.nk, nr := t.nr, rkvalid := t.rkvalid, free := t.free } := by
  rcases ensureSchedule_cases s with ⟨_, h'⟩ | ⟨h', _⟩
  · exact h'
  · exact absurd h h'

/-- What `ensure_schedule` leaves when it answers (R86). -/
theorem ensureSchedule_ok {s u : State} (h : s.ensureSchedule = .ok u) :
    s.KeyReady ∧ ScheduleEnsured s u ∧ u.schedule = s.activeSchedule ∧
      u = { s with rks := u.rks, nk := u.nk, nr := u.nr, rkvalid := u.rkvalid, free := u.free } := by
  rcases ensureSchedule_cases s with ⟨hk, t, ht, h'⟩ | ⟨_, he⟩
  · rw [ht] at h; cases h; exact ⟨hk, h'⟩
  · rw [he] at h; cases h

theorem ensureSchedule_notReady {s : State} (h : ¬ s.KeyReady) : s.ensureSchedule = .error .invalidKeySize := by
  rcases ensureSchedule_cases s with ⟨h', _⟩ | ⟨_, h'⟩
  · exact absurd h' h
  · exact h'

end Sys2Proof.Machine
end

