-- ==== Sys2Proof/Laws/Commands.lean ====
section
/-! SUPPORT. What each shared operation of the commands can do, once for all commands that call it (42_block_cipher.md, 43_padding.md, 44_mode_controller.md, 45_stream_codec.md, 30_encoding.md R54). -/

namespace Sys2Proof.Machine

/-! ### The end of a command -/

@[simp] theorem finish_ok (s t : State) (i : Instr) : s.finish i (.ok t) = .next t := rfl

@[simp] theorem finish_error (s : State) (i : Instr) (e : ErrKind) :
    s.finish i (.error e) = .next (s.raiseIn i e) := rfl

/-- Everything `finish` can answer. -/
theorem finish_cases (s : State) (i : Instr) (r : Except ErrKind State) :
    (∃ t, r = .ok t ∧ s.finish i r = .next t) ∨ ∃ e, r = .error e ∧ s.finish i r = .next (s.raiseIn i e) := by
  cases r with
  | ok t => exact .inl ⟨t, rfl, rfl⟩
  | error e => exact .inr ⟨e, rfl, rfl⟩

/-! ### Block-level commands -/

/-- Everything the command `DOUT <- f(DIN, RKS)` can do (42_block_cipher.md R113, R114). -/
theorem blockCommand_cases (s : State) (f : Block → List Word → Block) :
    (s.KeyReady ∧ ∃ t, s.blockCommand f = .ok t ∧ t.dout = f s.din s.activeSchedule ∧ ScheduleEnsured s t ∧
      t = { s with dout := t.dout, rks := t.rks, nk := t.nk, nr := t.nr, rkvalid := t.rkvalid, free := t.free }) ∨
    (¬ s.KeyReady ∧ s.blockCommand f = .error .invalidKeySize) := by
  unfold State.blockCommand
  rcases ensureSchedule_cases s with ⟨hk, t, ht, hens, hsch, heq⟩ | ⟨hk, he⟩
  · have hdin : t.din = s.din := by rw [heq]
    exact .inl ⟨hk, t.setDout (f t.din t.schedule), by rw [ht], by simp [hdin, hsch], hens,
      congrArg (fun u => u.setDout (f t.din t.schedule)) heq⟩
  · exact .inr ⟨hk, by rw [he]⟩

/-- Everything the command `(DOUT, PREV) <- f(DIN, PREV, RKS)` can do (44_mode_controller.md R155, R157). -/
theorem chainCommand_cases (s : State) (f : Block → Block → List Word → Block × Block) :
    (s.KeyReady ∧ s.chainv = true ∧ ∃ t, s.chainCommand f = .ok t ∧
      t.dout = (f s.din s.prev s.activeSchedule).1 ∧ t.prev = (f s.din s.prev s.activeSchedule).2 ∧
      ScheduleEnsured s t ∧
      t = { s with dout := t.dout, prev := t.prev, rks := t.rks, nk := t.nk, nr := t.nr, rkvalid := t.rkvalid,
                   free := t.free }) ∨
    (s.KeyReady ∧ s.chainv = false ∧ s.chainCommand f = .error .missingIV) ∨
    (¬ s.KeyReady ∧ s.chainCommand f = .error .invalidKeySize) := by
  unfold State.chainCommand
  rcases ensureSchedule_cases s with ⟨hk, t, ht, hens, hsch, heq⟩ | ⟨hk, he⟩
  · have hdin : t.din = s.din := by rw [heq]
    have hprev : t.prev = s.prev := by rw [heq]
    have hch : t.chainv = s.chainv := by rw [heq]
    by_cases hc : s.chainv = true
    · exact .inl ⟨hk, hc, (t.setDout (f t.din t.prev t.schedule).1).setPrev (f t.din t.prev t.schedule).2,
        by rw [ht]; simp [hch, hc], by simp [hdin, hprev, hsch], by simp [hdin, hprev, hsch], hens,
        congrArg (fun u => (u.setDout (f t.din t.prev t.schedule).1).setPrev (f t.din t.prev t.schedule).2) heq⟩
    · exact .inr (.inl ⟨hk, by simpa using hc, by rw [ht]; simp [hch, hc]⟩)
  · exact .inr (.inr ⟨hk, by rw [he]⟩)

/-! ### The start of a stream -/

/-- Everything `stream_start(ECB)` can do (44_mode_controller.md R151). -/
theorem streamStart_ecb_cases (s : State) :
    (s.KeyReady ∧ ∃ t, s.streamStart .ecb = .ok t ∧ ScheduleEnsured s t ∧ t.schedule = s.activeSchedule ∧
      t = { s with chainv := false, rks := t.rks, nk := t.nk, nr := t.nr, rkvalid := t.rkvalid, free := t.free }) ∨
    (¬ s.KeyReady ∧ s.streamStart .ecb = .error .invalidKeySize) := by
  unfold State.streamStart
  rcases ensureSchedule_cases s with ⟨hk, t, ht, hens, hsch, heq⟩ | ⟨hk, he⟩
  · exact .inl ⟨hk, t.closeChain, by rw [ht], hens, hsch, congrArg State.closeChain heq⟩
  · exact .inr ⟨hk, by rw [he]⟩

/-- Everything `stream_start(CBC)` can do (44_mode_controller.md R151). -/
theorem streamStart_cbc_cases (s : State) :
    (s.KeyReady ∧ s.ivlen = 16 ∧ ∃ t, s.streamStart .cbc = .ok t ∧ ScheduleEnsured s t ∧
      t.schedule = s.activeSchedule ∧
      t = { s with prev := s.iv, ivlen := 0, chainv := true, rks := t.rks, nk := t.nk, nr := t.nr,
                   rkvalid := t.rkvalid, free := t.free }) ∨
    (s.KeyReady ∧ s.ivlen = 0 ∧ s.streamStart .cbc = .error .missingIV) ∨
    (s.KeyReady ∧ s.ivlen ≠ 0 ∧ s.ivlen ≠ 16 ∧ s.streamStart .cbc = .error .invalidIVSize) ∨
    (¬ s.KeyReady ∧ s.streamStart .cbc = .error .invalidKeySize) := by
  unfold State.streamStart
  rcases ensureSchedule_cases s with ⟨hk, t, ht, hens, hsch, heq⟩ | ⟨hk, he⟩
  · have hiv : t.ivlen = s.ivlen := by rw [heq]
    by_cases h0 : s.ivlen = 0
    · exact .inr (.inl ⟨hk, h0, by rw [ht]; simp [hiv, h0]⟩)
    · by_cases h16 : s.ivlen = 16
      · exact .inl ⟨hk, h16, t.openChain, by rw [ht]; simp only [hiv, h16]; rfl, hens, hsch,
          congrArg State.openChain heq⟩
      · exact .inr (.inr (.inl ⟨hk, h0, h16, by
          rw [ht]; simp only [hiv]; rw [if_neg h0, if_pos h16]⟩))
  · exact .inr (.inr (.inr ⟨hk, by rw [he]⟩))

/-- What `stream_start(m)` does when it does not raise: the schedule ensured, the chaining value in place. -/
theorem streamStart_ready {s : State} {m : Mode} (h : s.StartReady m) :
    ∃ t, s.streamStart m = .ok t ∧ ScheduleEnsured s t ∧ t.schedule = s.activeSchedule ∧ t.prev = s.startPrev m ∧
      t.ivlen = (if m = .ecb then s.ivlen else 0) ∧
      t = { s with prev := t.prev, ivlen := t.ivlen, chainv := t.chainv, rks := t.rks, nk := t.nk, nr := t.nr,
                   rkvalid := t.rkvalid, free := t.free } := by
  cases m with
  | ecb =>
    rcases streamStart_ecb_cases s with ⟨_, t, ht, hens, hsch, heq⟩ | ⟨hk, _⟩
    · exact ⟨t, ht, hens, hsch, by rw [heq]; rfl, by rw [heq]; rfl, by rw [heq]⟩
    · exact absurd h.1 hk
  | cbc =>
    have h16 := h.2 rfl
    rcases streamStart_cbc_cases s with ⟨_, _, t, ht, hens, hsch, heq⟩ | ⟨_, h0, _⟩ | ⟨_, _, hn, _⟩ | ⟨hk, _⟩
    · exact ⟨t, ht, hens, hsch, by rw [heq]; rfl, by rw [heq]; rfl, by rw [heq]⟩
    · rw [h16] at h0; cases h0
    · exact absurd h16 hn
    · exact absurd h.1 hk

/-- `stream_start(m)` raises only setup errors, when the start is not ready (R151). -/
theorem streamStart_cases (s : State) (m : Mode) :
    s.StartReady m ∨
    ∃ e, s.streamStart m = .error e ∧ (e = .invalidKeySize ∨ e = .missingIV ∨ e = .invalidIVSize) := by
  cases m with
  | ecb =>
    rcases streamStart_ecb_cases s with ⟨hk, _⟩ | ⟨_, he⟩
    · exact .inl ⟨hk, fun h => by cases h⟩
    · exact .inr ⟨_, he, .inl rfl⟩
  | cbc =>
    rcases streamStart_cbc_cases s with ⟨hk, h16, _⟩ | ⟨_, _, he⟩ | ⟨_, _, _, he⟩ | ⟨_, he⟩
    · exact .inl ⟨hk, fun _ => h16⟩
    · exact .inr ⟨_, he, .inr (.inl rfl)⟩
    · exact .inr ⟨_, he, .inr (.inr rfl)⟩
    · exact .inr ⟨_, he, .inl rfl⟩

/-- What a stream start that answers leaves (44_mode_controller.md R151). -/
theorem streamStart_ok {s u : State} {m : Mode} (h : s.streamStart m = .ok u) :
    s.StartReady m ∧ ScheduleEnsured s u ∧ u.schedule = s.activeSchedule ∧ u.prev = s.startPrev m ∧
      u.chainv = decide (m = .cbc) ∧ u.ivlen = (if m = .ecb then s.ivlen else 0) ∧
      u = { s with prev := u.prev, ivlen := u.ivlen, chainv := u.chainv, rks := u.rks, nk := u.nk, nr := u.nr,
                   rkvalid := u.rkvalid, free := u.free } := by
  cases m with
  | ecb =>
    rcases streamStart_ecb_cases s with ⟨hk, t, ht, h2, h3, h4⟩ | ⟨_, he⟩
    · rw [ht] at h; cases h
      exact ⟨⟨hk, fun h => by cases h⟩, h2, h3, by rw [h4]; rfl, by rw [h4]; rfl, by rw [h4]; rfl, by rw [h4]⟩
    · rw [he] at h; cases h
  | cbc =>
    rcases streamStart_cbc_cases s with ⟨hk, h16, t, ht, h2, h3, h4⟩ | ⟨_, _, he⟩ | ⟨_, _, _, he⟩ | ⟨_, he⟩
    · rw [ht] at h; cases h
      exact ⟨⟨hk, fun _ => h16⟩, h2, h3, by rw [h4]; rfl, by rw [h4]; rfl, by rw [h4]; rfl, by rw [h4]⟩
    all_goals rw [he] at h; cases h

/-! ### Buffer commands -/

theorem inputTooLong_iff (s : State) : s.inputTooLong = true ↔ s.cfg.bufcap < s.inlen.toNat := by
  simp [State.inputTooLong]

@[simp] theorem input_length (s : State) : s.input.length = s.inlen.toNat := by simp [State.input]

/-- The output written by `setOutput` is what OBUF holds below OUTLEN (10_state.md R23, R29). -/
theorem setOutput_outputs (s : State) {out : List Byte} (h : out.length < 2 ^ 32) : Outputs (s.setOutput out) out :=
  ⟨by simp; omega, Mem.readBytes_writeBytes (Mem.unspecified_wf _ _) 0 out⟩

/-- Everything a `PAD` or `UNPAD` command can do (43_padding.md R136 to R141). -/
theorem padCommand_cases (s : State) (i : Instr) (f : List Byte → Except ErrKind (List Byte)) :
    (s.cfg.bufcap < s.inlen.toNat ∧ s.padCommand i f = s.raiseIn i .ioError) ∨
    (s.inlen.toNat ≤ s.cfg.bufcap ∧
      ((∃ out, f s.input = .ok out ∧ s.padCommand i f = s.setOutput out) ∨
        ∃ e, f s.input = .error e ∧ s.padCommand i f = s.padDataError i e)) := by
  unfold State.padCommand
  cases h : s.inputTooLong with
  | true => exact .inl ⟨(inputTooLong_iff s).1 h, rfl⟩
  | false =>
    refine .inr ⟨by have := (inputTooLong_iff s).not.1 (by simp [h]); omega, ?_⟩
    cases hf : f s.input with
    | ok out => exact .inl ⟨out, rfl, by simp⟩
    | error e => exact .inr ⟨e, rfl, by simp⟩

/-- Everything a stream command can do before its stream (45_stream_codec.md R170, R171). -/
theorem streamCommand_cases (s : State) (i : Instr) (m : Mode) (body : State → State) :
    (s.cfg.bufcap < s.inlen.toNat ∧ s.streamCommand i m body = s.raiseIn i .ioError) ∨
    (s.inlen.toNat ≤ s.cfg.bufcap ∧
      ((∃ e, s.streamStart m = .error e ∧ s.streamCommand i m body = s.raiseIn i e) ∨
        ∃ t, s.streamStart m = .ok t ∧ s.streamCommand i m body = body t)) := by
  unfold State.streamCommand
  cases h : s.inputTooLong with
  | true => exact .inl ⟨(inputTooLong_iff s).1 h, rfl⟩
  | false =>
    refine .inr ⟨by have := (inputTooLong_iff s).not.1 (by simp [h]); omega, ?_⟩
    cases hm : s.streamStart m with
    | error e => exact .inl ⟨e, rfl, by simp⟩
    | ok t => exact .inr ⟨t, rfl, by simp⟩

/-- The errors `pad` and `unpad` raise (43_padding.md R132, R133). -/
theorem pad_error {p : PadPolicy} {d : List Byte} {e : ErrKind} (h : pad p d = .error e) :
    p = .none ∧ d.length % 16 ≠ 0 ∧ e = .unalignedData := by
  cases p with
  | pkcs7 => cases h
  | zero => cases h
  | none =>
    simp only [pad] at h
    split at h
    · cases h
    · exact ⟨rfl, ‹_›, by cases h; rfl⟩

theorem unpad_error {z : ZeroUnpad} {p : PadPolicy} {d : List Byte} {e : ErrKind} (h : unpad z p d = .error e) :
    p = .pkcs7 ∧ e = .invalidPadding := by
  cases p with
  | pkcs7 =>
    simp only [unpad, unpadPkcs7] at h
    repeat' split at h
    all_goals first | (cases h; exact ⟨rfl, rfl⟩) | cases h
  | zero => cases h
  | none => cases h

/-! ### Blocks and bytes -/

@[simp] theorem Word.bytes_length (w : Word) : w.bytes.length = 4 := rfl

@[simp] theorem Block.bytes_length (b : Block) : b.bytes.length = 16 := rfl

@[simp] theorem blockOfBytes_bytes_append (b : Block) (l : List Byte) : blockOfBytes (b.bytes ++ l) = b := rfl

@[simp] theorem blocksOfBytes_length (l : List Byte) (n : Nat) : (blocksOfBytes l n).length = n := by
  induction n generalizing l with
  | zero => rfl
  | succ n ih => simp [blocksOfBytes, ih]

@[simp] theorem bytesOfBlocks_cons (b : Block) (l : List Block) :
    bytesOfBlocks (b :: l) = b.bytes ++ bytesOfBlocks l := rfl

@[simp] theorem bytesOfBlocks_length (l : List Block) : (bytesOfBlocks l).length = 16 * l.length := by
  induction l with
  | nil => rfl
  | cons b l ih => simp [ih]; omega

/-- A sequence of blocks is read back from its bytes (R172). -/
theorem blocksOfBytes_bytesOfBlocks (l : List Block) : blocksOfBytes (bytesOfBlocks l) l.length = l := by
  induction l with
  | nil => rfl
  | cons b l ih =>
    simp only [bytesOfBlocks_cons, List.length_cons, blocksOfBytes, blockOfBytes_bytes_append]
    rw [List.drop_left' (Block.bytes_length b), ih]

/-- The first sixteen bytes of a sequence are those of its first block (R172). -/
theorem blockOfBytes_bytes {l : List Byte} (h : 16 ≤ l.length) : (blockOfBytes l).bytes = l.take 16 := by
  match l, h with
  | a0 :: a1 :: a2 :: a3 :: a4 :: a5 :: a6 :: a7 :: a8 :: a9 :: a10 :: a11 :: a12 :: a13 :: a14 :: a15 :: rest, _ => rfl

/-- The blocks of a sequence of full blocks have its bytes (R172). -/
theorem bytesOfBlocks_blocksOfBytes {l : List Byte} {n : Nat} (h : l.length = 16 * n) :
    bytesOfBlocks (blocksOfBytes l n) = l := by
  induction n generalizing l with
  | zero => simpa [blocksOfBytes, bytesOfBlocks] using (List.length_eq_zero_iff.1 (by omega)).symm
  | succ n ih =>
    rw [blocksOfBytes, bytesOfBlocks_cons, blockOfBytes_bytes (by omega), ih (by simp; omega), List.take_append_drop]

/-- Blocks of a sequence and of what follows it. -/
theorem blocksOfBytes_add (l : List Byte) (n k : Nat) :
    blocksOfBytes l (n + k) = blocksOfBytes l n ++ blocksOfBytes (l.drop (16 * n)) k := by
  induction n generalizing l with
  | zero => simp [blocksOfBytes]
  | succ n ih =>
    rw [show n + 1 + k = n + k + 1 by omega, blocksOfBytes, ih, blocksOfBytes, List.cons_append, List.drop_drop,
      show 16 + 16 * n = 16 * (n + 1) by omega]

/-- The blocks of a sequence of full blocks do not depend on what follows it. -/
theorem blocksOfBytes_append {l : List Byte} {n : Nat} (h : l.length = 16 * n) (k : List Byte) :
    blocksOfBytes (l ++ k) n = blocksOfBytes l n := by
  induction n generalizing l with
  | zero => rfl
  | succ n ih =>
    match l, h with
    | a0 :: a1 :: a2 :: a3 :: a4 :: a5 :: a6 :: a7 :: a8 :: a9 :: a10 :: a11 :: a12 :: a13 :: a14 :: a15 :: rest, h =>
      simp only [blocksOfBytes, List.cons_append, List.drop_succ_cons, List.drop_zero]
      congr 1
      exact ih (by simp at h; omega)

/-- A run over blocks and then more blocks hands the chaining value on (20_memory.md R48). -/
theorem runBlocks_append (f : Block → Block → Block × Block) (l k : List Block) (v : Block) :
    runBlocks f (l ++ k) v =
      ((runBlocks f l v).1 ++ (runBlocks f k (runBlocks f l v).2).1, (runBlocks f k (runBlocks f l v).2).2) := by
  induction l generalizing v with
  | nil => rfl
  | cons b l ih => simp [runBlocks, ih]

@[simp] theorem runBlocks_length (f : Block → Block → Block × Block) (l : List Block) (v : Block) :
    (runBlocks f l v).1.length = l.length := by
  induction l generalizing v with
  | nil => rfl
  | cons b l ih => simp [runBlocks, ih]

@[simp] theorem encBlocks_length (m : Mode) (w : List Word) (l : List Block) (v : Block) :
    (encBlocks m w l v).1.length = l.length := runBlocks_length _ l v

@[simp] theorem decBlocks_length (m : Mode) (w : List Word) (l : List Block) (v : Block) :
    (decBlocks m w l v).1.length = l.length := runBlocks_length _ l v

theorem bytesOfBlocks_append (l k : List Block) : bytesOfBlocks (l ++ k) = bytesOfBlocks l ++ bytesOfBlocks k := by
  simp [bytesOfBlocks]

/-! ### The packing of a word -/

/-- Byte 0 of a word stands in bits 31:24 of its value, and so on down (20_memory.md R36). -/
theorem packWord_bytes (w : Word) :
    (packWord w).extractLsb' 24 8 = w.b0 ∧ (packWord w).extractLsb' 16 8 = w.b1 ∧
      (packWord w).extractLsb' 8 8 = w.b2 ∧ (packWord w).extractLsb' 0 8 = w.b3 := by
  unfold packWord
  refine ⟨?_, ?_, ?_, ?_⟩ <;>
    (ext i hi
     have hi8 : i < 8 := hi
     simp only [BitVec.getElem_extractLsb', BitVec.getLsbD_append]
     interval_cases i <;> simp)

/-- A value packed again from its bytes (20_memory.md R36). -/
theorem packWord_unpackWord (v : Reg32) : packWord (unpackWord v) = v := by
  unfold packWord unpackWord
  ext i hi
  have hi32 : i < 32 := hi
  simp only [← BitVec.getLsbD_eq_getElem, BitVec.getLsbD_append, BitVec.getLsbD_extractLsb']
  interval_cases i <;> simp

/-! ### Dispatch and the host's moves -/

/-- The write of a command word is a write to `CMD` on every implementation (10_state.md R17). -/
@[simp] theorem portOf_cmd (bufcap : Nat) : portOf bufcap 4 0x00000 = .cmd := rfl

theorem ite_ne_of {α : Type} {c : Prop} [Decidable c] {x y z : α} (hx : c → x ≠ z) (hy : y ≠ z) :
    (if c then x else y) ≠ z := by
  split
  · exact hx ‹_›
  · exact hy

/-- Only offset 0 is that of `CMD` (10_state.md R17). -/
theorem portAt_eq_cmd {bufcap a : Nat} (h : portAt bufcap a = .cmd) : a = 0 := by
  by_contra ha
  rw [portAt, if_neg ha] at h
  revert h
  repeat' refine ite_ne_of (fun _ h => by cases h) ?_
  exact fun h => by cases h

/-- Only offset 8 is that of `KLEN` (10_state.md R17). -/
theorem portAt_eq_klen {bufcap a : Nat} (h : portAt bufcap a = .klen) : a = 8 := by
  by_contra ha
  revert h
  repeat' refine ite_ne_of (fun hc h => by first | exact ha hc | cases h) ?_
  exact fun h => by cases h

/-- Only the offsets 0x020 to 0x03C are those of `KEY` (10_state.md R17). -/
theorem portAt_eq_key {bufcap a : Nat} {j : Fin 8} (h : portAt bufcap a = .key j) : 0x020 ≤ a ∧ a ≤ 0x03C := by
  by_contra ha
  revert h
  repeat' refine ite_ne_of (fun hc h => by first | exact ha hc | cases h) ?_
  exact fun h => by cases h

/-- An access that is not refused is an aligned word access (20_memory.md R38). -/
theorem portOf_not_refused {bufcap w : Nat} {off : BitVec 20} (h : portOf bufcap w off ≠ .refused) :
    w = 4 ∧ portOf bufcap w off = portAt bufcap off.toNat := by
  by_cases h4 : w = 4 ∧ off.toNat % 4 = 0
  · exact ⟨h4.1, if_pos h4⟩
  · exact absurd (if_neg h4) h

/-- Only an aligned word access at offset 0 selects `CMD` (10_state.md R17, 20_memory.md R38). -/
theorem portOf_eq_cmd {bufcap w : Nat} {off : BitVec 20} (h : portOf bufcap w off = .cmd) : w = 4 ∧ off = 0 := by
  unfold portOf at h
  split_ifs at h with h4
  exact ⟨h4.1, BitVec.eq_of_toNat_eq (portAt_eq_cmd h)⟩

/-- Everything a step can do (20_memory.md R43). -/
theorem step_cases {s : State} {o : Host.Outcome State Fault Refusal} (h : step s = o) :
    (s.host = [] ∧ o = .next s) ∨
    (∃ w off rest, s.host = .read w off :: rest ∧ o = .next ({ s with host := rest }.hostRead w off)) ∨
    (∃ v rest, s.host = .write 4 0x00000 v :: rest ∧ o = cmdWrite v { s with host := rest }) ∨
    (∃ w off v rest, s.host = .write w off v :: rest ∧ portOf s.cfg.bufcap w off ≠ .cmd ∧
      o = .next ({ s with host := rest }.portWrite (portOf s.cfg.bufcap w off) v)) ∨
    (∃ rest, s.host = .reset :: rest ∧ o = .next { s with host := rest }.resetAll) := by
  subst h
  unfold step hostStep
  cases hs : s.host with
  | nil => exact .inl ⟨rfl, rfl⟩
  | cons a rest =>
    cases a with
    | read w off => exact .inr (.inl ⟨w, off, rest, rfl, rfl⟩)
    | reset => exact .inr (.inr (.inr (.inr ⟨rest, rfl, rfl⟩)))
    | write w off v =>
      by_cases hp : portOf s.cfg.bufcap w off = .cmd
      · obtain ⟨rfl, rfl⟩ := portOf_eq_cmd hp
        exact .inr (.inr (.inl ⟨v, rest, rfl, rfl⟩))
      · refine .inr (.inr (.inr (.inl ⟨w, off, v, rest, rfl, hp, ?_⟩)))
        simp only [hostMove, hostWrite]

/-- What a host write of anything but `CMD` leaves as it was (10_state.md R32 to R34). -/
theorem portWrite_frame (s : State) (p : Port) (v : Reg32) :
    s.portWrite p v =
      { s with
        key := (s.portWrite p v).key, iv := (s.portWrite p v).iv, din := (s.portWrite p v).din
        rkvalid := (s.portWrite p v).rkvalid, nk := (s.portWrite p v).nk, nr := (s.portWrite p v).nr
        klen := (s.portWrite p v).klen, ivlen := (s.portWrite p v).ivlen, inlen := (s.portWrite p v).inlen
        rks := (s.portWrite p v).rks, ibuf := (s.portWrite p v).ibuf, free := (s.portWrite p v).free } := by
  cases p <;> rfl

/-- Everything the write of a word to `CMD` can do (30_encoding.md R54). -/
theorem cmdWrite_cases (c : Reg32) (s : State) :
    (∃ i, decode c = .ok i ∧ (s.err = .noError ∨ i = .clrerr ∨ i = .rst) ∧ cmdWrite c s = exec i s) ∨
    (s.err = .noError ∧ (∃ r, decode c = .error r) ∧ cmdWrite c s = .next (s.raise c false .illegalCommand)) ∨
    (s.err ≠ .noError ∧ decode c ≠ .ok .clrerr ∧ decode c ≠ .ok .rst ∧ cmdWrite c s = .next s) := by
  unfold cmdWrite
  by_cases he : s.err = .noError
  · rw [if_neg (by simp [he])]
    cases hd : decode c with
    | ok i => exact .inl ⟨i, rfl, .inl he, rfl⟩
    | error r => exact .inr (.inl ⟨he, ⟨r, rfl⟩, rfl⟩)
  · rw [if_pos he]
    split
    · exact .inl ⟨_, ‹_›, .inr (.inl rfl), rfl⟩
    · exact .inl ⟨_, ‹_›, .inr (.inr rfl), rfl⟩
    · rename_i h1 h2
      exact .inr (.inr ⟨he, h1, h2, rfl⟩)

end Sys2Proof.Machine
end

