-- ==== Sys2Proof/Laws/Exec.lean ====
section
/-! SUPPORT. Everything a command can do, in one inversion lemma over all 29 commands, and the length of what it outputs. -/

namespace Sys2Proof.Machine

/-! ### Lengths of outputs -/

theorem bufcap_eq (c : Config) : ∃ k, c.bufcap = 16 * (k + 1) ∧ k < 4095 := ⟨_, rfl, c.bufExtra.isLt⟩

/-- The length of a padded sequence (43_padding.md R130 to R132). -/
theorem pad_length {p : PadPolicy} {d q : List Byte} (h : pad p d = .ok q) :
    q.length % 16 = 0 ∧ d.length ≤ q.length ∧ q.length ≤ 16 * (d.length / 16 + 1) := by
  cases p with
  | pkcs7 => simp only [pad, Except.ok.injEq] at h; subst h; simp; omega
  | zero => simp only [pad, Except.ok.injEq] at h; subst h; simp; omega
  | none =>
    simp only [pad] at h
    split at h
    · cases h; omega
    · cases h

/-- Padding the bytes after the last full block pads the whole sequence (45_stream_codec.md R170). -/
theorem pad_final_chunk {p : PadPolicy} {d chunk : List Byte} {q : Nat} (hq : q = d.length / 16)
    (h : pad p (d.drop (16 * q)) = .ok chunk) : pad p d = .ok (d.take (16 * q) ++ chunk) := by
  have hl : (d.drop (16 * q)).length % 16 = d.length % 16 := by simp; omega
  cases p with
  | pkcs7 =>
    simp only [pad, Except.ok.injEq, hl] at h ⊢
    rw [← h, ← List.append_assoc, List.take_append_drop]
  | zero =>
    simp only [pad, Except.ok.injEq, hl] at h ⊢
    rw [← h, ← List.append_assoc, List.take_append_drop]
  | none =>
    simp only [pad, hl] at h ⊢
    split at h
    · cases h
      rw [if_pos ‹_›, List.take_append_drop]
    · cases h

theorem dropZeros_length (n : Nat) (l : List Byte) : (dropZeros n l).length ≤ l.length := by
  induction l generalizing n with
  | nil => cases n <;> simp [dropZeros]
  | cons b rest ih =>
    cases n with
    | zero => simp [dropZeros]
    | succ n =>
      simp only [dropZeros]
      split
      · exact Nat.le_succ_of_le (ih n)
      · exact Nat.le_refl _

theorem unpadZeros_length (z : ZeroUnpad) (d : List Byte) : (unpadZeros z d).length ≤ d.length := by
  cases z <;> simp only [unpadZeros, stripZeros, List.length_reverse]
  · exact (dropZeros_length _ _).trans (by simp)
  · exact (dropZeros_length _ _).trans (by simp)
  · exact Nat.le_refl _

/-- An unpadded sequence is no longer than what it was taken from (43_padding.md R133 to R135). -/
theorem unpad_length {z : ZeroUnpad} {p : PadPolicy} {d q : List Byte} (h : unpad z p d = .ok q) :
    q.length ≤ d.length := by
  cases p with
  | pkcs7 =>
    simp only [unpad, unpadPkcs7] at h
    repeat' split at h
    all_goals cases h
    simp
  | zero => simp only [unpad, Except.ok.injEq] at h; exact h ▸ unpadZeros_length z d
  | none => simp only [unpad, Except.ok.injEq] at h; exact h ▸ Nat.le_refl _

/-! ### Everything a stream can do after its setup -/

/-- Everything the stream of `SENC` can do (45_stream_codec.md R170). -/
theorem sencStream_cases (t : State) (i : Instr) (m : Mode) (p : PadPolicy) (h : t.inlen.toNat ≤ t.cfg.bufcap) :
    (∃ e, e.isData = true ∧ t.sencStream i m p = t.streamDataError i m e) ∨
    ∃ out prev, out.length ≤ t.cfg.bufcap + 16 ∧ (m = .ecb → prev = t.prev) ∧ t.sencStream i m p = t.endStream out prev := by
  obtain ⟨k, hk, _⟩ := bufcap_eq t.cfg
  have hecb : ∀ (w : List Word) (l : List Block) (v : Block), (encBlocks .ecb w l v).2 = v := by
    intro w l
    induction l with
    | nil => intro v; rfl
    | cons b l ih => intro v; exact ih v
  unfold State.sencStream
  dsimp only
  cases hp : pad p (t.input.drop (16 * (t.inlen.toNat / 16))) with
  | error e => exact .inl ⟨e, by rw [(pad_error hp).2.2]; rfl, rfl⟩
  | ok chunk =>
    refine .inr ⟨_, _, ?_, ?_, rfl⟩
    · have := pad_length hp
      simp only [List.length_drop, input_length] at this
      simp
      omega
    · rintro rfl
      simp only [hecb]

/-- Everything the stream of `SDEC` can do (45_stream_codec.md R171). -/
theorem sdecStream_cases (t : State) (i : Instr) (m : Mode) (p : PadPolicy) (h : t.inlen.toNat ≤ t.cfg.bufcap) :
    (∃ e, e.isData = true ∧ t.sdecStream i m p = t.streamDataError i m e) ∨
    ∃ out prev, out.length ≤ t.cfg.bufcap + 16 ∧ (m = .ecb → prev = t.prev) ∧ t.sdecStream i m p = t.endStream out prev := by
  have hecb : ∀ (w : List Word) (l : List Block) (v : Block), (decBlocks .ecb w l v).2 = v := by
    intro w l
    induction l with
    | nil => intro v; rfl
    | cons b l ih => intro v; exact ih v
  unfold State.sdecStream
  by_cases hl : t.inlen.toNat % 16 = 0
  · simp only [hl, ne_eq, not_true_eq_false, if_false]
    split
    · rename_i e he
      exact .inl ⟨e, by rw [(unpad_error he).2]; rfl, rfl⟩
    · rename_i out ho
      refine .inr ⟨out, _, ?_, ?_, rfl⟩
      · have := unpad_length ho
        simp at this
        omega
      · rintro rfl
        simp only [hecb]
  · exact .inl ⟨.unalignedData, rfl, by simp [hl]⟩

/-! ### Everything a command can do -/

/-- The state `t` that the command `i` leaves from the state `s`, by what kind of end it comes to. -/
inductive Effect (s : State) (i : Instr) : State → Prop where
  /-- A setup error: the record only (60_exceptions.md R195). -/
  | setupError (e : ErrKind) (he : e.isSetup = true) : Effect s i (s.raiseIn i e)
  /-- `KEXP` (41_key_schedule.md R85). -/
  | keyExpanded (hi : i = .kexp) (hk : keyLengthLegal s.klen.toNat = true) : Effect s i (s.setSchedule s.expansion)
  /-- `ENCB`, `DECB`, `MENC.ECB`, `MDEC.ECB` (42_block_cipher.md R113, R114, 44_mode_controller.md R154, R156). -/
  | blockDone (hi : i.fields.mode = 0 ∧ i.fields.opc.toNat ∈ [0x02, 0x03, 0x05, 0x06]) (u : State) (b : Block)
      (hu : s.ensureSchedule = .ok u) : Effect s i (u.setDout b)
  /-- `MENC.CBC`, `MDEC.CBC` (44_mode_controller.md R155, R157). -/
  | chainDone (hi : i = .mencCbc ∨ i = .mdecCbc) (u : State) (b p : Block) (hu : s.ensureSchedule = .ok u)
      (hc : s.chainv = true) : Effect s i ((u.setDout b).setPrev p)
  /-- `MINIT` (44_mode_controller.md R152, R153). -/
  | streamStarted (m : Mode) (hi : i = minitInstr m) (u : State) (hu : s.streamStart m = .ok u) : Effect s i u
  /-- `PAD`, `UNPAD` (43_padding.md R136 to R141). -/
  | padDone (hi : i.fields.opc.toNat ∈ [0x07, 0x08]) (out : List Byte) (hlen : out.length ≤ s.cfg.bufcap + 16) :
      Effect s i (s.setOutput out)
  /-- A data error of `PAD.NONE` or `UNPAD.PKCS7` (60_exceptions.md R196). -/
  | padDataError (hi : i.fields.opc.toNat ∈ [0x07, 0x08]) (e : ErrKind) (he : e.isData = true) :
      Effect s i (s.padDataError i e)
  /-- `SENC`, `SDEC` (45_stream_codec.md R170, R171). -/
  | streamDone (m : Mode) (hi : ∃ p, i = sencInstr m p ∨ i = sdecInstr m p) (u : State) (hu : s.streamStart m = .ok u)
      (out : List Byte) (prev : Block) (hlen : out.length ≤ s.cfg.bufcap + 16) (hp : m = .ecb → prev = s.prev) :
      Effect s i (u.endStream out prev)
  /-- A data error of `SENC` or `SDEC` (60_exceptions.md R196). -/
  | streamDataError (m : Mode) (hi : ∃ p, i = sencInstr m p ∨ i = sdecInstr m p) (u : State)
      (hu : s.streamStart m = .ok u) (e : ErrKind) (he : e.isData = true) : Effect s i (u.streamDataError i m e)
  /-- `CLRERR` (46_system_commands.md R185). -/
  | acknowledged (hi : i = .clrerr) : Effect s i s.acknowledge
  /-- `RST` (46_system_commands.md R186). -/
  | reset (hi : i = .rst) : Effect s i s.resetAll

theorem ensureSchedule_error {s : State} {e : ErrKind} (h : s.ensureSchedule = .error e) : e = .invalidKeySize := by
  rcases ensureSchedule_cases s with ⟨_, t, ht, _⟩ | ⟨_, he⟩
  · rw [ht] at h; cases h
  · rw [he] at h; cases h; rfl

theorem effect_finish_block {s : State} {i : Instr} (f : Block → List Word → Block)
    (hi : i.fields.mode = 0 ∧ i.fields.opc.toNat ∈ [0x02, 0x03, 0x05, 0x06]) :
    ∃ t, s.finish i (s.blockCommand f) = .next t ∧ Effect s i t := by
  unfold State.blockCommand
  cases h : s.ensureSchedule with
  | ok u => exact ⟨_, rfl, .blockDone hi u _ h⟩
  | error e => exact ⟨_, rfl, .setupError e (by rw [ensureSchedule_error h]; rfl)⟩

theorem effect_finish_chain {s : State} {i : Instr} (f : Block → Block → List Word → Block × Block)
    (hi : i = .mencCbc ∨ i = .mdecCbc) : ∃ t, s.finish i (s.chainCommand f) = .next t ∧ Effect s i t := by
  rcases chainCommand_cases s f with ⟨hk, hc, _⟩ | ⟨_, _, he⟩ | ⟨_, he⟩
  · obtain ⟨u, hu, _, _, heq⟩ := ensureSchedule_ready hk
    have huc : u.chainv = true := by rw [heq]; exact hc
    refine ⟨(u.setDout (f u.din u.prev u.schedule).1).setPrev (f u.din u.prev u.schedule).2, ?_,
      .chainDone hi u _ _ hu hc⟩
    simp only [State.chainCommand, hu, huc, if_true]
    rfl
  · exact ⟨_, by rw [he]; rfl, .setupError _ rfl⟩
  · exact ⟨_, by rw [he]; rfl, .setupError _ rfl⟩

theorem setup_of_start {e : ErrKind} (h : e = .invalidKeySize ∨ e = .missingIV ∨ e = .invalidIVSize) :
    e.isSetup = true := by
  rcases h with rfl | rfl | rfl <;> rfl

theorem streamStart_error {s : State} {m : Mode} {e : ErrKind} (h : s.streamStart m = .error e) : e.isSetup = true := by
  rcases streamStart_cases s m with hr | ⟨e', he', hs⟩
  · obtain ⟨t, ht, _⟩ := streamStart_ready hr
    rw [ht] at h; cases h
  · rw [he'] at h; cases h; exact setup_of_start hs

theorem effect_finish_start {s : State} {i : Instr} {m : Mode} (hi : i = minitInstr m) :
    ∃ t, s.finish i (s.streamStart m) = .next t ∧ Effect s i t := by
  cases h : s.streamStart m with
  | ok u => exact ⟨_, rfl, .streamStarted m hi u h⟩
  | error e => exact ⟨_, rfl, .setupError e (streamStart_error h)⟩

theorem effect_pad {s : State} {i : Instr} (p : PadPolicy) (hi : i.fields.opc.toNat ∈ [0x07, 0x08]) :
    Effect s i (s.padCommand i (pad p)) := by
  obtain ⟨k, hk, _⟩ := bufcap_eq s.cfg
  rcases padCommand_cases s i (pad p) with ⟨_, h⟩ | ⟨hl, ⟨out, ho, h⟩ | ⟨e, he, h⟩⟩ <;> rw [h]
  · exact .setupError _ rfl
  · refine .padDone hi out ?_
    have := pad_length ho
    simp at this
    omega
  · exact .padDataError hi e (by rw [(pad_error he).2.2]; rfl)

theorem effect_unpad {s : State} {i : Instr} (z : ZeroUnpad) (p : PadPolicy) (hi : i.fields.opc.toNat ∈ [0x07, 0x08]) :
    Effect s i (s.padCommand i (unpad z p)) := by
  rcases padCommand_cases s i (unpad z p) with ⟨_, h⟩ | ⟨hl, ⟨out, ho, h⟩ | ⟨e, he, h⟩⟩ <;> rw [h]
  · exact .setupError _ rfl
  · refine .padDone hi out ?_
    have := unpad_length ho
    simp at this
    omega
  · exact .padDataError hi e (by rw [(unpad_error he).2]; rfl)

theorem effect_stream {s : State} {i : Instr} {m : Mode} (hi : ∃ p, i = sencInstr m p ∨ i = sdecInstr m p)
    (body : State → State)
    (hb : ∀ t : State, t.inlen.toNat ≤ t.cfg.bufcap → (∃ e, e.isData = true ∧ body t = t.streamDataError i m e) ∨
      ∃ out prev, out.length ≤ t.cfg.bufcap + 16 ∧ (m = .ecb → prev = t.prev) ∧ body t = t.endStream out prev) :
    Effect s i (s.streamCommand i m body) := by
  rcases streamCommand_cases s i m body with ⟨_, h⟩ | ⟨hl, ⟨e, he, h⟩ | ⟨t, ht, h⟩⟩ <;> rw [h]
  · exact .setupError _ rfl
  · exact .setupError e (streamStart_error he)
  · have hr : s.StartReady m := by
      rcases streamStart_cases s m with hr | ⟨e, he, _⟩
      · exact hr
      · rw [ht] at he; cases he
    obtain ⟨t', ht', _, _, hp, _, heq⟩ := streamStart_ready hr
    rw [ht] at ht'
    cases ht'
    have hin : t.inlen = s.inlen := by rw [heq]
    have hcfg : t.cfg = s.cfg := by rw [heq]
    rcases hb t (by rw [hin, hcfg]; exact hl) with ⟨e, he, hbe⟩ | ⟨out, prev, hlen, hprev, hbe⟩ <;> rw [hbe]
    · exact .streamDataError m hi t ht e he
    · refine .streamDone m hi t ht out prev (by rw [← hcfg]; exact hlen) fun hm => ?_
      rw [hprev hm, hp, hm]
      rfl

theorem effect_senc (s : State) (m : Mode) (p : PadPolicy) :
    Effect s (sencInstr m p) (s.senc (sencInstr m p) m p) :=
  effect_stream ⟨p, .inl rfl⟩ _ fun t ht => sencStream_cases t _ m p ht

theorem effect_sdec (s : State) (m : Mode) (p : PadPolicy) :
    Effect s (sdecInstr m p) (s.sdec (sdecInstr m p) m p) :=
  effect_stream ⟨p, .inr rfl⟩ _ fun t ht => sdecStream_cases t _ m p ht

/-- Every command answers a next state, and its effect is one of those listed. -/
theorem exec_effect (i : Instr) (s : State) : ∃ t, exec i s = .next t ∧ Effect s i t := by
  cases i with
  | kexp =>
    have h := expandKey_eq s
    cases hk : keyLengthLegal s.klen.toNat with
    | true => exact ⟨_, by simp only [exec, execKexp, h, hk, if_true]; rfl, .keyExpanded rfl hk⟩
    | false => exact ⟨_, by simp only [exec, execKexp, h, hk]; rfl, .setupError _ rfl⟩
  | encb => exact effect_finish_block _ (by decide)
  | decb => exact effect_finish_block _ (by decide)
  | minitEcb => exact effect_finish_start rfl
  | minitCbc => exact effect_finish_start rfl
  | mencEcb => exact effect_finish_block _ (by decide)
  | mencCbc => exact effect_finish_chain _ (.inl rfl)
  | mdecEcb => exact effect_finish_block _ (by decide)
  | mdecCbc => exact effect_finish_chain _ (.inr rfl)
  | padPkcs7 => exact ⟨_, rfl, effect_pad .pkcs7 (by decide)⟩
  | padZero => exact ⟨_, rfl, effect_pad .zero (by decide)⟩
  | padNone => exact ⟨_, rfl, effect_pad .none (by decide)⟩
  | unpadPkcs7 => exact ⟨_, rfl, effect_unpad _ .pkcs7 (by decide)⟩
  | unpadZero => exact ⟨_, rfl, effect_unpad _ .zero (by decide)⟩
  | unpadNone => exact ⟨_, rfl, effect_unpad _ .none (by decide)⟩
  | sencEcbPkcs7 => exact ⟨_, rfl, effect_senc s .ecb .pkcs7⟩
  | sencCbcPkcs7 => exact ⟨_, rfl, effect_senc s .cbc .pkcs7⟩
  | sencEcbZero => exact ⟨_, rfl, effect_senc s .ecb .zero⟩
  | sencCbcZero => exact ⟨_, rfl, effect_senc s .cbc .zero⟩
  | sencEcbNone => exact ⟨_, rfl, effect_senc s .ecb .none⟩
  | sencCbcNone => exact ⟨_, rfl, effect_senc s .cbc .none⟩
  | sdecEcbPkcs7 => exact ⟨_, rfl, effect_sdec s .ecb .pkcs7⟩
  | sdecCbcPkcs7 => exact ⟨_, rfl, effect_sdec s .cbc .pkcs7⟩
  | sdecEcbZero => exact ⟨_, rfl, effect_sdec s .ecb .zero⟩
  | sdecCbcZero => exact ⟨_, rfl, effect_sdec s .cbc .zero⟩
  | sdecEcbNone => exact ⟨_, rfl, effect_sdec s .ecb .none⟩
  | sdecCbcNone => exact ⟨_, rfl, effect_sdec s .cbc .none⟩
  | clrerr => exact ⟨_, rfl, .acknowledged rfl⟩
  | rst => exact ⟨_, rfl, .reset rfl⟩

/-- Everything a command can do, from the state it leaves. -/
theorem effect_of_exec {i : Instr} {s t : State} (h : exec i s = .next t) : Effect s i t := by
  obtain ⟨u, hu, he⟩ := exec_effect i s
  rw [hu] at h
  cases h
  exact he

/-! ### The arms of the command families -/

theorem exec_senc (s : State) (m : Mode) (p : PadPolicy) :
    exec (sencInstr m p) s = .next (s.senc (sencInstr m p) m p) := by
  cases m <;> cases p <;> rfl

theorem exec_sdec (s : State) (m : Mode) (p : PadPolicy) :
    exec (sdecInstr m p) s = .next (s.sdec (sdecInstr m p) m p) := by
  cases m <;> cases p <;> rfl

theorem exec_minit (s : State) (m : Mode) :
    exec (minitInstr m) s = s.finish (minitInstr m) (s.streamStart m) := by
  cases m <;> rfl

theorem exec_pad (s : State) (p : PadPolicy) :
    exec (padInstr p) s = .next (s.padCommand (padInstr p) (pad p)) := by
  cases p <;> rfl

theorem exec_unpad (s : State) (p : PadPolicy) :
    exec (unpadInstr p) s = .next (s.padCommand (unpadInstr p) (unpad s.cfg.zeroUnpad p)) := by
  cases p <;> rfl

end Sys2Proof.Machine
end

