-- ==== Sys2Proof/Laws/Gf.lean ====
section
/-! SUPPORT. The GF(2^8) multiplier is linear over exclusive or in each operand, so that its laws reduce to those of the eight single-bit bytes (40_gf_and_tables.md R60, R61). -/

namespace Sys2Proof.Machine

/-- Doubling is linear (R60). -/
theorem xtime_xor (a b : Byte) : xtime (a ^^^ b) = xtime a ^^^ xtime b := by
  unfold xtime
  rw [BitVec.getLsbD_xor, BitVec.shiftLeft_xor_distrib]
  cases a.getLsbD 7 <;> cases b.getLsbD 7 <;> simp
  · ac_rfl
  · ac_rfl
  · rw [BitVec.xor_comm (b <<< 1), ← BitVec.xor_assoc (a <<< 1 ^^^ 27#8) 27#8, BitVec.xor_assoc (a <<< 1),
      BitVec.xor_self, BitVec.xor_zero]

/-- The loop of R61 is linear in the first operand and the accumulator. -/
theorem gmulLoop_xor_left (a a' b p p' : Byte) (n : Nat) :
    gmulLoop (a ^^^ a') b (p ^^^ p') n = gmulLoop a b p n ^^^ gmulLoop a' b p' n := by
  induction n generalizing a a' b p p' with
  | zero => rfl
  | succ n ih =>
    simp only [gmulLoop, xtime_xor]
    rw [← ih]
    congr 1
    split
    · ac_rfl
    · rfl

/-- The loop of R61 is linear in the second operand and the accumulator. -/
theorem gmulLoop_xor_right (a b b' p p' : Byte) (n : Nat) :
    gmulLoop a (b ^^^ b') (p ^^^ p') n = gmulLoop a b p n ^^^ gmulLoop a b' p' n := by
  induction n generalizing a b b' p p' with
  | zero => rfl
  | succ n ih =>
    simp only [gmulLoop, BitVec.getLsbD_xor, BitVec.ushiftRight_xor_distrib]
    rw [← ih]
    congr 1
    cases b.getLsbD 0 <;> cases b'.getLsbD 0 <;> simp [BitVec.xor_assoc]
    exact BitVec.xor_comm _ _

/-- Multiplication is linear in the first operand (R61). -/
theorem gmul_xor_left (a a' b : Byte) : gmul (a ^^^ a') b = gmul a b ^^^ gmul a' b :=
  gmulLoop_xor_left a a' b 0 0 8

end Sys2Proof.Machine
end

