-- ==== Sys2Proof/Laws/PerInstr.lean ====
section
/-! SUPPORT. The statements made per instruction: the family Encoding, one lemma for each constructor (30_encoding.md R50 to R53). -/

namespace Sys2Proof.Laws.Encoding

/-- The word of a command has the command's fields, no condition of R55 makes it illegal, and it decodes to the command. -/
def Statement (i : Instr) : Prop :=
  fieldsOf (encode i) = i.fields ∧ i.fields.wellFormed = true ∧ decode (encode i) = .ok i

theorem kexp : Statement .kexp := by unfold Statement; decide
theorem encb : Statement .encb := by unfold Statement; decide
theorem decb : Statement .decb := by unfold Statement; decide
theorem minitEcb : Statement .minitEcb := by unfold Statement; decide
theorem minitCbc : Statement .minitCbc := by unfold Statement; decide
theorem mencEcb : Statement .mencEcb := by unfold Statement; decide
theorem mencCbc : Statement .mencCbc := by unfold Statement; decide
theorem mdecEcb : Statement .mdecEcb := by unfold Statement; decide
theorem mdecCbc : Statement .mdecCbc := by unfold Statement; decide
theorem padPkcs7 : Statement .padPkcs7 := by unfold Statement; decide
theorem padZero : Statement .padZero := by unfold Statement; decide
theorem padNone : Statement .padNone := by unfold Statement; decide
theorem unpadPkcs7 : Statement .unpadPkcs7 := by unfold Statement; decide
theorem unpadZero : Statement .unpadZero := by unfold Statement; decide
theorem unpadNone : Statement .unpadNone := by unfold Statement; decide
theorem sencEcbPkcs7 : Statement .sencEcbPkcs7 := by unfold Statement; decide
theorem sencCbcPkcs7 : Statement .sencCbcPkcs7 := by unfold Statement; decide
theorem sencEcbZero : Statement .sencEcbZero := by unfold Statement; decide
theorem sencCbcZero : Statement .sencCbcZero := by unfold Statement; decide
theorem sencEcbNone : Statement .sencEcbNone := by unfold Statement; decide
theorem sencCbcNone : Statement .sencCbcNone := by unfold Statement; decide
theorem sdecEcbPkcs7 : Statement .sdecEcbPkcs7 := by unfold Statement; decide
theorem sdecCbcPkcs7 : Statement .sdecCbcPkcs7 := by unfold Statement; decide
theorem sdecEcbZero : Statement .sdecEcbZero := by unfold Statement; decide
theorem sdecCbcZero : Statement .sdecCbcZero := by unfold Statement; decide
theorem sdecEcbNone : Statement .sdecEcbNone := by unfold Statement; decide
theorem sdecCbcNone : Statement .sdecCbcNone := by unfold Statement; decide
theorem clrerr : Statement .clrerr := by unfold Statement; decide
theorem rst : Statement .rst := by unfold Statement; decide

end Sys2Proof.Laws.Encoding
end

