-- ==== Sys2Proof/Tests/Slice0.lean ====
section
/-! SUPPORT. The model's own tests, on values the spec gives (95_test_vectors.md), and for each statement of Obligations.lean with hypotheses a state and operands that meet them. -/

namespace Sys2Proof.Tests

open Sys2Proof Sys2Proof.Machine

/-! ### Helpers -/

/-- A block from the four register values the host would write for it (20_memory.md R36). -/
def blk (a b c d : Reg32) : Block := ⟨unpackWord a, unpackWord b, unpackWord c, unpackWord d⟩

/-- The words of a register file from their values, the rest 0. -/
def fileOf (l : List Reg32) : Vector Word 60 := Vector.ofFn fun j => unpackWord (l.getD j.val 0)

/-- The key register from the values of its words. -/
def keyOf (l : List Reg32) : Vector Word 8 := Vector.ofFn fun j => unpackWord (l.getD j.val 0)

/-- A buffer that holds the given bytes from index 0 on. -/
def bufOf (l : List Byte) : Mem := Mem.writeBytes ⟨[], .zeros⟩ 0 l

/-- Bytes `00 01 02 …` of the given number. -/
def counting (n : Nat) : List Byte := (List.range n).map (BitVec.ofNat 8)

/-- Part of the state a command leaves. -/
def after {α : Type} (i : Instr) (s : State) (f : State → α) : Option α :=
  match exec i s with
  | .next t => some (f t)
  | .fault _ => none
  | .refused _ => none

/-- Part of the state a step leaves. -/
def stepped {α : Type} (s : State) (f : State → α) : Option α :=
  match step s with
  | .next t => some (f t)
  | .fault _ => none
  | .refused _ => none

/-- The output of a buffer command. -/
def output (t : State) : List Byte := t.obuf.readBytes 0 t.outlen.toNat

/-- The record of an error: `ERR`, `ERRCMD`, `OUTLEN`. -/
def record (t : State) : ErrKind × Reg32 × Reg32 := (t.err, t.errcmd, t.outlen)

/-- The key words of V1: `000102…0f`. -/
def key1 : Vector Word 8 := keyOf [0x00010203, 0x04050607, 0x08090A0B, 0x0C0D0E0F]

/-- The key words of V15: `000102…1f`. -/
def key15 : Vector Word 8 :=
  keyOf [0x00010203, 0x04050607, 0x08090A0B, 0x0C0D0E0F, 0x10111213, 0x14151617, 0x18191A1B, 0x1C1D1E1F]

/-- The key K128 of 95_test_vectors.md 2.5. -/
def key128 : Vector Word 8 := keyOf [0x2B7E1516, 0x28AED2A6, 0xABF71588, 0x09CF4F3C]

/-- The schedule of V12, that of K128. -/
def rks128 : Vector Word 60 := fileOf
  ([0x2b7e1516, 0x28aed2a6, 0xabf71588, 0x09cf4f3c, 0xa0fafe17, 0x88542cb1, 0x23a33939, 0x2a6c7605,
    0xf2c295f2, 0x7a96b943, 0x5935807a, 0x7359f67f, 0x3d80477d, 0x4716fe3e, 0x1e237e44, 0x6d7a883b,
    0xef44a541, 0xa8525b7f, 0xb671253b, 0xdb0bad00, 0xd4d1c6f8, 0x7c839d87, 0xcaf2b8bc, 0x11f915bc] ++
   [0x6d88a37a, 0x110b3efd, 0xdbf98641, 0xca0093fd, 0x4e54f70e, 0x5f5fc9f3, 0x84a64fb2, 0x4ea6dc4f,
    0xead27321, 0xb58dbad2, 0x312bf560, 0x7f8d292f, 0xac7766f3, 0x19fadc21, 0x28d12941, 0x575c006e,
    0xd014f9a8, 0xc9ee2589, 0xe13f0cc8, 0xb6630ca6])

/-- The IV of 95_test_vectors.md 2.5. -/
def iv0 : Block := blk 0x00010203 0x04050607 0x08090A0B 0x0C0D0E0F

/-- The block `P0` of 95_test_vectors.md 2.5. -/
def p0 : Block := blk 0x6bc1bee2 0x2e409f96 0xe93d7e11 0x7393172a

/-- Reset with the key of V1. -/
def s1 : State := { State.reset with key := key1, klen := 16 }

/-- Reset with K128 and its schedule valid, the IV armed, and `P0` in DIN. -/
def s128 : State :=
  { State.reset with
    key := key128, klen := 16, rks := rks128, rkvalid := true, nk := 4, nr := 10, iv := iv0, ivlen := 16, din := p0 }

/-- `s128` with a CBC chain open from the IV. -/
def chained : State := { s128 with chainv := true, prev := iv0, ivlen := 0 }

/-- The message `M` of 95_test_vectors.md 2.6, "Hello, world!". -/
def msg : List Byte := [0x48, 0x65, 0x6c, 0x6c, 0x6f, 0x2c, 0x20, 0x77, 0x6f, 0x72, 0x6c, 0x64, 0x21]

/-- A state with bytes of input. -/
def withInput (s : State) (l : List Byte) : State := { s with ibuf := bufOf l, inlen := BitVec.ofNat 32 l.length }

/-- A state whose host has one move pending. -/
def withMove (s : State) (a : HostMove) : State := { s with host := [a] }

/-! ### Well-formedness: an ill-formed word for each check of R55 -/

theorem test_reservedClear_refuses : CommandFields.reservedClear ⟨0x01, 0, 0, 1⟩ = false := by decide
theorem test_opcAssigned_refuses : CommandFields.opcAssigned ⟨0x0B, 0, 0, 0⟩ = false ∧
    CommandFields.opcAssigned ⟨0x00, 0, 0, 0⟩ = false ∧ CommandFields.opcAssigned ⟨0x10, 0, 0, 0⟩ = false := by decide
theorem test_modeLegal_refuses : CommandFields.modeLegal ⟨0x04, 2, 0, 0⟩ = false := by decide
theorem test_padpLegal_refuses : CommandFields.padpLegal ⟨0x09, 0, 3, 0⟩ = false := by decide
theorem test_modeAllowed_refuses : CommandFields.modeAllowed ⟨0x02, 1, 0, 0⟩ = false := by decide
theorem test_padpAllowed_refuses : CommandFields.padpAllowed ⟨0x04, 0, 1, 0⟩ = false := by decide
theorem test_wellFormed_refuses : CommandFields.wellFormed ⟨0x07, 1, 0, 0⟩ = false := by decide
theorem test_wellFormed_accepts : CommandFields.wellFormed ⟨0x0A, 1, 2, 0⟩ = true := by decide

/-! ### Decoding: words written out field by field, RSVD, PADP, MODE, OPC (30_encoding.md R50 to R52) -/

theorem test_decode_kexp : decode (0#20 ++ 0b00#2 ++ 0b00#2 ++ 0b00000001#8) = .ok .kexp := by decide
theorem test_decode_block : decode (0#20 ++ 0b00#2 ++ 0b00#2 ++ 0b00000010#8) = .ok .encb ∧
    decode (0#20 ++ 0b00#2 ++ 0b00#2 ++ 0b00000011#8) = .ok .decb := by decide
theorem test_decode_minit : decode (0#20 ++ 0b00#2 ++ 0b00#2 ++ 0b00000100#8) = .ok .minitEcb ∧
    decode (0#20 ++ 0b00#2 ++ 0b01#2 ++ 0b00000100#8) = .ok .minitCbc := by decide
theorem test_decode_menc : decode (0#20 ++ 0b00#2 ++ 0b00#2 ++ 0b00000101#8) = .ok .mencEcb ∧
    decode (0#20 ++ 0b00#2 ++ 0b01#2 ++ 0b00000101#8) = .ok .mencCbc := by decide
theorem test_decode_mdec : decode (0#20 ++ 0b00#2 ++ 0b00#2 ++ 0b00000110#8) = .ok .mdecEcb ∧
    decode (0#20 ++ 0b00#2 ++ 0b01#2 ++ 0b00000110#8) = .ok .mdecCbc := by decide
theorem test_decode_pad : decode (0#20 ++ 0b00#2 ++ 0b00#2 ++ 0b00000111#8) = .ok .padPkcs7 ∧
    decode (0#20 ++ 0b01#2 ++ 0b00#2 ++ 0b00000111#8) = .ok .padZero ∧
    decode (0#20 ++ 0b10#2 ++ 0b00#2 ++ 0b00000111#8) = .ok .padNone := by decide
theorem test_decode_unpad : decode (0#20 ++ 0b00#2 ++ 0b00#2 ++ 0b00001000#8) = .ok .unpadPkcs7 ∧
    decode (0#20 ++ 0b01#2 ++ 0b00#2 ++ 0b00001000#8) = .ok .unpadZero ∧
    decode (0#20 ++ 0b10#2 ++ 0b00#2 ++ 0b00001000#8) = .ok .unpadNone := by decide
theorem test_decode_senc : decode (0#20 ++ 0b00#2 ++ 0b00#2 ++ 0b00001001#8) = .ok .sencEcbPkcs7 ∧
    decode (0#20 ++ 0b00#2 ++ 0b01#2 ++ 0b00001001#8) = .ok .sencCbcPkcs7 ∧
    decode (0#20 ++ 0b01#2 ++ 0b00#2 ++ 0b00001001#8) = .ok .sencEcbZero ∧
    decode (0#20 ++ 0b01#2 ++ 0b01#2 ++ 0b00001001#8) = .ok .sencCbcZero ∧
    decode (0#20 ++ 0b10#2 ++ 0b00#2 ++ 0b00001001#8) = .ok .sencEcbNone ∧
    decode (0#20 ++ 0b10#2 ++ 0b01#2 ++ 0b00001001#8) = .ok .sencCbcNone := by decide
theorem test_decode_sdec : decode (0#20 ++ 0b00#2 ++ 0b00#2 ++ 0b00001010#8) = .ok .sdecEcbPkcs7 ∧
    decode (0#20 ++ 0b00#2 ++ 0b01#2 ++ 0b00001010#8) = .ok .sdecCbcPkcs7 ∧
    decode (0#20 ++ 0b01#2 ++ 0b00#2 ++ 0b00001010#8) = .ok .sdecEcbZero ∧
    decode (0#20 ++ 0b01#2 ++ 0b01#2 ++ 0b00001010#8) = .ok .sdecCbcZero ∧
    decode (0#20 ++ 0b10#2 ++ 0b00#2 ++ 0b00001010#8) = .ok .sdecEcbNone ∧
    decode (0#20 ++ 0b10#2 ++ 0b01#2 ++ 0b00001010#8) = .ok .sdecCbcNone := by decide
theorem test_decode_system : decode (0#20 ++ 0b00#2 ++ 0b00#2 ++ 0b00001110#8) = .ok .clrerr ∧
    decode (0#20 ++ 0b00#2 ++ 0b00#2 ++ 0b00001111#8) = .ok .rst := by decide
/-- V60. -/
theorem test_decode_refuses : decode 0x00000000 = .error .unassignedOpc ∧ decode 0x000000FF = .error .unassignedOpc ∧
    decode 0x00000304 = .error .reservedMode ∧ decode 0x80000001 = .error .reservedBits := by decide
/-- One row of the opcode table and one word it does not have. -/
theorem test_decodeTableWord : decodeTableWord 32 0x90A = some .sdecCbcNone ∧ decodeTableWord 32 0xB = none := by decide

/-! ### Arithmetic and tables (V3 to V7) -/

theorem test_xtime : xtime 0x57 = 0xae ∧ xtime 0xae = 0x47 ∧ xtime 0x80 = 0x1b ∧ xtime 0x7f = 0xfe := by decide
theorem test_gmul : gmul 0x57 0x83 = 0xc1 ∧ gmul 0x57 0x13 = 0xfe ∧ gmul 0x80 0x80 = 0x9a ∧ gmul 0xff 0xff = 0x13 ∧
    gmul 0x09 0x0e = 0x7e := by decide
theorem test_ginv : ginv 0x00 = 0x00 ∧ ginv 0x02 = 0x8d ∧ ginv 0x53 = 0xca ∧ ginv 0xff = 0x1c := by decide +kernel
theorem test_sbox : sbox 0x00 = 0x63 ∧ sbox 0x10 = 0xca ∧ sbox 0x53 = 0xed ∧ sbox 0xff = 0x16 ∧ invSbox 0xed = 0x53 ∧
    invSbox 0xff = 0x7d := by decide
theorem test_rcon : (List.range 10).map (fun j => rcon (j + 1)) =
    [0x01, 0x02, 0x04, 0x08, 0x10, 0x20, 0x40, 0x80, 0x1b, 0x36] := by decide
/-- R62, V4: `gmul(d4,02)`, `gmul(bf,03)`, `gmul(09,0e)`, `gmul(0b,0d)` in the product tables. -/
theorem test_product_tables : tableAt mul02Rows 0xd4 = 0xb3 ∧ tableAt mul03Rows 0xbf = 0xda ∧
    tableAt mul09Rows 0x0e = 0x7e ∧ tableAt mul0bRows 0x0d = 0x7f := by decide

/-! ### Key schedule (V10 to V17) -/

/-- V11. -/
theorem test_rotword_subword : subword (rotword (unpackWord 0x0c0d0e0f)) = unpackWord 0xd7ab76fe := by decide
/-- V10, V17, P1: STATUS, `RKS[0]`, `RKS[4]`, `RKS[43]`. -/
theorem test_kexp : after .kexp s1 (fun t => (t.status, packWord t.rks[0], packWord t.rks[4], packWord t.rks[43])) =
    some (0x0000A410, 0x00010203, 0xD6AA74FD, 0x4D2B30C5) := by decide +kernel
/-- V17: `KLEN = 20`. -/
theorem test_kexp_length : after .kexp { s1 with klen := 20 } (fun t => (record t, t.rkvalid)) =
    some ((.invalidKeySize, 0x00000001, 0), false) := by decide
/-- V14: a 24-byte key, words 6 and 51. -/
theorem test_expand_192 : (expand ({ State.reset with key := key15, klen := 24 } : State).keyBytes).toOption.map
    (fun w => (w.length, packWord (w.getD 6 .zero), packWord (w.getD 51 .zero))) =
    some (52, 0x5846f2f9, 0xe3a41d5d) := by decide +kernel
/-- V15, V16: a 32-byte key, words 8, 12, 16 and 59; the substitution stands at `i mod 8 = 4` only. -/
theorem test_expand_256 : (expand ({ State.reset with key := key15, klen := 32 } : State).keyBytes).toOption.map
    (fun w => (w.length, packWord (w.getD 8 .zero), packWord (w.getD 12 .zero), packWord (w.getD 16 .zero),
      packWord (w.getD 59 .zero))) =
    some (60, 0xa573c29f, 0x1651a8cd, 0xae87dff0, 0x6d68de36) := by decide +kernel

/-! ### Round transforms (V18, V19) and the block cipher -/

/-- V18. -/
theorem test_subBytes : subBytes iv0 = blk 0x637c777b 0xf26b6fc5 0x3001672b 0xfed7ab76 ∧
    invSubBytes iv0 = blk 0x52096ad5 0x3036a538 0xbf40a39e 0x81f3d7fb := by decide
/-- V18. -/
theorem test_shiftRows : shiftRows iv0 = blk 0x00050a0f 0x04090e03 0x080d0207 0x0c01060b ∧
    invShiftRows iv0 = blk 0x000d0a07 0x04010e0b 0x0805020f 0x0c090603 := by decide
/-- V18. -/
theorem test_mixColumns : mixColumns iv0 = blk 0x02070005 0x06030401 0x0a0f080d 0x0e0b0c09 ∧
    invMixColumns iv0 = blk 0x0a0f080d 0x0e0b0c09 0x02070005 0x06030401 := by decide +kernel
/-- V19. -/
theorem test_mixColumn : mixColumn 0x02 0x03 0x01 0x01 (unpackWord 0xdb135345) = unpackWord 0x8e4da1bc ∧
    mixColumn 0x0E 0x0B 0x0D 0x09 (unpackWord 0xdb135345) = unpackWord 0x32a41d55 ∧
    mixColumn 0x02 0x03 0x01 0x01 (unpackWord 0x01000000) = unpackWord 0x02010103 ∧
    mixColumn 0x0E 0x0B 0x0D 0x09 (unpackWord 0x00010000) = unpackWord 0x0b0e090d := by decide +kernel
/-- V18. -/
theorem test_addRoundKey : addRoundKey iv0 (blk 0x00112233 0x44556677 0x8899aabb 0xccddeeff) =
    blk 0x00102030 0x40506070 0x8090a0b0 0xc0d0e0f0 := by decide
/-- V1, P1: the key is expanded implicitly. -/
theorem test_encb : after .encb { s1 with din := blk 0x00112233 0x44556677 0x8899aabb 0xccddeeff }
    (fun t => (t.status, t.dout)) = some (0x0000A410, blk 0x69c4e0d8 0x6a7b0430 0xd8cdb780 0x70b4c55a) := by decide +kernel
/-- V16: a 256-bit key. -/
theorem test_encb_256 : after .encb { s1 with key := key15, klen := 32, din := blk 0x00112233 0x44556677 0x8899aabb 0xccddeeff }
    (fun t => (t.status, t.dout)) = some (0x0000E810, blk 0x8ea2b7ca 0x516745bf 0xeafc4990 0x4b496089) := by decide +kernel
/-- V1, P1. -/
theorem test_decb : after .decb { s1 with din := blk 0x69c4e0d8 0x6a7b0430 0xd8cdb780 0x70b4c55a }
    (fun t => (t.status, t.dout)) = some (0x0000A410, blk 0x00112233 0x44556677 0x8899aabb 0xccddeeff) := by decide +kernel
/-- P5: `KLEN = 20`, the implicit expansion fails and DOUT stays. -/
theorem test_encb_key : after .encb { s128 with rkvalid := false, klen := 20 } (fun t => (record t, t.dout)) =
    some ((.invalidKeySize, 0x00000002, 0), .zero) := by decide

/-! ### Padding (V30 to V33) -/

/-- V30, rows 1 to 3 and 5. -/
theorem test_pad_pkcs7 : pad .pkcs7 [] = .ok (List.replicate 16 0x10) ∧
    pad .pkcs7 [0x41, 0x42, 0x43] = .ok ([0x41, 0x42, 0x43] ++ List.replicate 13 0x0d) ∧
    pad .pkcs7 (counting 16) = .ok (counting 16 ++ List.replicate 16 0x10) := by decide
/-- V30. -/
theorem test_pad_zero : pad .zero [] = .ok [] ∧ pad .zero [0x41] = .ok (0x41 :: List.replicate 15 0x00) ∧
    pad .zero (counting 16) = .ok (counting 16) := by decide
/-- V31: valid padding, and each way to be invalid. -/
theorem test_unpad_pkcs7 : unpadPkcs7 ([0x41, 0x42, 0x43] ++ List.replicate 13 0x0d) = .ok [0x41, 0x42, 0x43] ∧
    unpadPkcs7 (List.replicate 16 0x10) = .ok [] ∧ unpadPkcs7 [0xaa, 0x01, 0x01] = .ok [0xaa, 0x01] ∧
    unpadPkcs7 (counting 15 ++ [0x11]) = .error .invalidPadding ∧ unpadPkcs7 (counting 15 ++ [0x00]) = .error .invalidPadding ∧
    unpadPkcs7 ([0x41, 0x42, 0x43, 0x0c] ++ List.replicate 12 0x0d) = .error .invalidPadding ∧
    unpadPkcs7 [0x03, 0x03] = .error .invalidPadding ∧ unpadPkcs7 [] = .error .invalidPadding := by decide
/-- V32. -/
theorem test_unpad_zero : unpadZeros .stripAll ([0x41, 0x42] ++ List.replicate 14 0x00) = [0x41, 0x42] ∧
    unpadZeros .stripLtBlock (List.replicate 16 0x00) = [0x00] ∧ unpadZeros .stripAll (List.replicate 32 0x00) = [] ∧
    unpadZeros .stripLtBlock (List.replicate 32 0x00) = List.replicate 17 0x00 ∧
    unpadZeros .nothing [0x41, 0x00] = [0x41, 0x00] := by decide
/-- V33. -/
theorem test_padPkcs7 : after .padPkcs7 (withInput State.reset [0x41, 0x42, 0x43]) (fun t => (t.outlen, output t)) =
    some (16, [0x41, 0x42, 0x43] ++ List.replicate 13 0x0d) := by decide +kernel
/-- V33. -/
theorem test_padZero : after .padZero (withInput State.reset [0x41, 0x42, 0x43]) (fun t => (t.outlen, output t)) =
    some (16, [0x41, 0x42, 0x43] ++ List.replicate 13 0x00) := by decide +kernel
/-- V33. -/
theorem test_padNone : after .padNone (withInput State.reset [0x41, 0x42, 0x43]) record =
    some (.unalignedData, 0x00000807, 0) ∧ after .padNone State.reset record = some (.noError, 0, 0) := by decide
/-- V33: the largest output, `BUFCAP + 16`, here with `BUFCAP = 16`, and one byte more. -/
theorem test_pad_capacity :
    after .padPkcs7 { withInput State.reset (counting 16) with cfg := ⟨0, .stripAll⟩ } (·.outlen) = some 32 ∧
    after .padPkcs7 { withInput State.reset (counting 17) with cfg := ⟨0, .stripAll⟩ } record =
      some (.ioError, 0x00000007, 0) := by decide +kernel
/-- V33. -/
theorem test_unpadPkcs7 : after .unpadPkcs7 State.reset record = some (.invalidPadding, 0x00000008, 0) ∧
    after .unpadPkcs7 (withInput State.reset [0xaa, 0x01, 0x01]) output = some [0xaa, 0x01] := by decide
/-- V33, V32: the parameter selects what is removed. -/
theorem test_unpadZero : after .unpadZero State.reset record = some (.noError, 0, 0) ∧
    after .unpadZero (withInput State.reset [0x41, 0x00]) output = some [0x41] ∧
    after .unpadZero { withInput State.reset [0x41, 0x00] with cfg := ⟨255, .nothing⟩ } output = some [0x41, 0x00] := by decide
/-- V32, V33. -/
theorem test_unpadNone : after .unpadNone (withInput State.reset [0x41, 0x00]) output = some [0x41, 0x00] := by decide

/-! ### Modes (V40, V41, P4) -/

/-- R152: a chain open before is closed and the IV is not consumed. -/
theorem test_minitEcb : after .minitEcb { chained with ivlen := 8 } (fun t => (t.status, t.ivlen)) =
    some (0x0000A410, 8) := by decide
/-- P4. -/
theorem test_minitCbc : after .minitCbc s128 (fun t => (t.status, t.ivlen, t.prev)) =
    some (0x0000A430, 0, blk 0x00010203 0x04050607 0x08090a0b 0x0c0d0e0f) := by decide
/-- P4: the IV not armed, and of 8 bytes; an open chain stays open. -/
theorem test_minitCbc_iv : after .minitCbc chained (fun t => (t.status, t.errcmd)) = some (0x0000A433, 0x00000104) ∧
    after .minitCbc { s128 with ivlen := 8 } (fun t => (t.status, t.ivlen)) = some (0x0000A412, 8) := by decide
/-- V40, C0. -/
theorem test_mencEcb : after .mencEcb chained (fun t => (t.status, t.dout, t.prev)) =
    some (0x0000A430, blk 0x3ad77bb4 0x0d7a3660 0xa89ecaf3 0x2466ef97, iv0) := by decide +kernel
/-- V41, C0; P4. -/
theorem test_mencCbc : after .mencCbc chained (fun t => (t.dout, t.prev)) =
    some (blk 0x7649abac 0x8119b246 0xcee98e9b 0x12e9197d, blk 0x7649abac 0x8119b246 0xcee98e9b 0x12e9197d) := by decide +kernel
/-- P4: no chain is open. -/
theorem test_mencCbc_chain : after .mencCbc s128 (fun t => (t.status, t.errcmd)) = some (0x0000A413, 0x00000105) := by decide
/-- V40, C0, decrypted. -/
theorem test_mdecEcb : after .mdecEcb { chained with din := blk 0x3ad77bb4 0x0d7a3660 0xa89ecaf3 0x2466ef97 }
    (fun t => (t.dout, t.prev)) = some (p0, iv0) := by decide +kernel
/-- V41, C0, decrypted; the chaining value is the ciphertext block. -/
theorem test_mdecCbc : after .mdecCbc { chained with din := blk 0x7649abac 0x8119b246 0xcee98e9b 0x12e9197d }
    (fun t => (t.dout, t.prev)) = some (p0, blk 0x7649abac 0x8119b246 0xcee98e9b 0x12e9197d) := by decide +kernel

/-! ### Streams (V50 to V56) -/

/-- The bytes of a block of values. -/
def bytesOf (a b c d : Reg32) : List Byte := (blk a b c d).bytes

/-- V50. -/
theorem test_sencEcbPkcs7 : after .sencEcbPkcs7 (withInput s128 msg) output =
    some (bytesOf 0x451e8b89 0x9da9667e 0x74b80b05 0xa6404f21) := by decide +kernel
/-- V50. -/
theorem test_sencEcbZero : after .sencEcbZero (withInput s128 msg) output =
    some (bytesOf 0x0b12f653 0x0ec64f8f 0x6e16073f 0xfde872ba) := by decide +kernel
/-- V50, P2. -/
theorem test_sencCbcPkcs7 : after .sencCbcPkcs7 (withInput s128 msg) (fun t => (t.status, t.ivlen, output t, t.prev.bytes)) =
    some (0x0000A410, 0, bytesOf 0x031a5ef0 0xe4bc7756 0xeccc5e2c 0x438f1d6d,
      bytesOf 0x031a5ef0 0xe4bc7756 0xeccc5e2c 0x438f1d6d) := by decide +kernel
/-- V50. -/
theorem test_sencCbcZero : after .sencCbcZero (withInput s128 msg) output =
    some (bytesOf 0x81f612fd 0xf12d115c 0x966a8b39 0xa55942e4) := by decide +kernel
/-- V50: the last row. -/
theorem test_sencEcbNone : after .sencEcbNone (withInput s128 msg) record = some (.unalignedData, 0x00000809, 0) := by decide +kernel
/-- V50, last row, with the IV consumed; V51: an empty input, `PREV` = IV. -/
theorem test_sencCbcNone :
    after .sencCbcNone (withInput s128 msg) (fun t => (record t, t.ivlen)) = some ((.unalignedData, 0x00000909, 0), 0) ∧
    after .sencCbcNone s128 (fun t => (record t, t.ivlen, t.prev)) = some ((.noError, 0, 0), 0, iv0) := by decide +kernel
/-- V52: two blocks. -/
theorem test_sencCbcPkcs7_two : after .sencCbcPkcs7 (withInput s128 (counting 17)) output =
    some (bytesOf 0x7df76b0c 0x1ab899b3 0x3e42f047 0xb91b546f ++ bytesOf 0xd57997d8 0x2e386c96 0x0d98a99a 0xd7d62e0a) := by decide +kernel
/-- V50, decrypted. -/
theorem test_sdecEcbPkcs7 : after .sdecEcbPkcs7 (withInput s128 (bytesOf 0x451e8b89 0x9da9667e 0x74b80b05 0xa6404f21)) output =
    some msg := by decide +kernel
/-- V50, decrypted. -/
theorem test_sdecEcbZero : after .sdecEcbZero (withInput s128 (bytesOf 0x0b12f653 0x0ec64f8f 0x6e16073f 0xfde872ba)) output =
    some msg := by decide +kernel
/-- V50, P2: decrypted; `PREV` is the last ciphertext block. -/
theorem test_sdecCbcPkcs7 : after .sdecCbcPkcs7 (withInput s128 (bytesOf 0x031a5ef0 0xe4bc7756 0xeccc5e2c 0x438f1d6d))
    (fun t => (output t, t.ivlen, t.prev)) = some (msg, 0, blk 0x031a5ef0 0xe4bc7756 0xeccc5e2c 0x438f1d6d) := by decide +kernel
/-- V50, decrypted. -/
theorem test_sdecCbcZero : after .sdecCbcZero (withInput s128 (bytesOf 0x81f612fd 0xf12d115c 0x966a8b39 0xa55942e4)) output =
    some msg := by decide +kernel
/-- V40, C0, decrypted. -/
theorem test_sdecEcbNone : after .sdecEcbNone (withInput s128 (bytesOf 0x3ad77bb4 0x0d7a3660 0xa89ecaf3 0x2466ef97)) output =
    some p0.bytes := by decide +kernel
/-- V41, C0, decrypted; V56: a length that is no multiple of 16. -/
theorem test_sdecCbcNone :
    after .sdecCbcNone (withInput s128 (bytesOf 0x7649abac 0x8119b246 0xcee98e9b 0x12e9197d)) output = some p0.bytes ∧
    after .sdecCbcNone (withInput s128 (counting 17)) record = some (.unalignedData, 0x0000090A, 0) := by decide +kernel
/-- V56: `SDEC.m.PKCS7` of nothing. -/
theorem test_sdecEcbPkcs7_empty : after .sdecEcbPkcs7 s128 record = some (.invalidPadding, 0x0000000A, 0) := by decide
/-- V56: the order of the setup errors, 6 before 1 before 3. -/
theorem test_setup_order :
    after .sencCbcPkcs7 { s1 with klen := 20, inlen := 4097 } record = some (.ioError, 0x00000109, 0) ∧
    after .sencCbcPkcs7 { s1 with klen := 20 } record = some (.invalidKeySize, 0x00000109, 0) ∧
    after .sencCbcPkcs7 { s128 with ivlen := 0 } record = some (.missingIV, 0x00000109, 0) ∧
    after .sencCbcPkcs7 { s128 with ivlen := 17 } record = some (.invalidIVSize, 0x00000109, 0) := by decide

/-! ### System commands, dispatch and the host's window -/

/-- P2: `CLRERR` after `MissingIV`. -/
theorem test_clrerr : after .clrerr { s128 with err := .missingIV, errcmd := 0x0000010A } (fun t => (t.status, t.errcmd)) =
    some (0x0000A410, 0) := by decide
/-- R186, R31. -/
theorem test_rst : after .rst { chained with err := .ioError, errcmd := 9, outlen := 5 }
    (fun t => (t.status, t.klen, t.ivlen, record t)) = some (0, 0, 0, (.noError, 0, 0)) := by decide
/-- P3: in the error state a command is refused, and its word is not recorded. -/
theorem test_error_gate : stepped (withMove { s128 with err := .invalidPadding, errcmd := 0x0A } (.write 4 0x000 0x00000002))
    (fun t => (record t, t.dout)) = some ((.invalidPadding, 0x0000000A, 0), .zero) := by decide
/-- V60: an illegal word. -/
theorem test_illegal : stepped (withMove s128 (.write 4 0x000 0x00000102)) (fun t => (record t, t.status)) =
    some ((.illegalCommand, 0x00000102, 0), 0x0000A417) := by decide
/-- `step` runs the word `withFetchWord` places, right after reset: `KEXP` with no key length (P5). -/
theorem test_fetch : stepped (State.reset.withFetchWord 32 0x00000001) record = some (.invalidKeySize, 0x00000001, 0) := by decide
/-- P1: the host reads STATUS, and a word of RKS, and what a read returns is in `rdata`. -/
theorem test_host_read : stepped (withMove s128 (.read 4 0x004)) (·.rdata) = some 0x0000A410 ∧
    stepped (withMove s128 (.read 4 0x110)) (·.rdata) = some 0xa0fafe17 := by decide +kernel
/-- P1, P5: a write of a key word drops the schedule; R20: KLEN keeps 8 bits. -/
theorem test_host_write :
    stepped (withMove s128 (.write 4 0x020 0x2B7E1516)) (fun t => (t.status, t.key)) = some (0, key128) ∧
    stepped (withMove s128 (.write 4 0x008 0x00000118)) (fun t => (t.status, t.klen)) = some (0, 0x18) := by decide
/-- R36, R37: a word of IBUF stands with its first byte in bits 31:24. -/
theorem test_ibuf_write : stepped (withMove State.reset (.write 4 0x10004 0x48656c00))
    (fun t => (t.ibuf.cells, t.ibuf.readBytes 3 6)) =
    some ([(4, 0x48), (5, 0x65), (6, 0x6c)], [0x00, 0x48, 0x65, 0x6c, 0x00, 0x00]) := by decide

/-! ### Witnesses: a state and operands that meet the hypotheses of each statement, clause by clause -/

/-- A step that answers. -/
theorem step_goes (s : State) : ∃ t, step s = .next t := by
  rcases step_cases (s := s) rfl with ⟨_, h⟩ | ⟨_, _, _, _, h⟩ | ⟨v, rest, _, h⟩ | ⟨_, _, _, _, _, _, h⟩ | ⟨_, _, h⟩
  · exact ⟨_, h⟩
  · exact ⟨_, h⟩
  · rw [h]
    rcases cmdWrite_cases v { s with host := rest } with ⟨i, _, _, h⟩ | ⟨_, _, h⟩ | ⟨_, _, _, h⟩ <;> rw [h]
    · obtain ⟨t, h, _⟩ := exec_effect i { s with host := rest }
      exact ⟨t, h⟩
    · exact ⟨_, rfl⟩
    · exact ⟨_, rfl⟩
  · exact ⟨_, h⟩
  · exact ⟨_, h⟩

/-- A step whose outcome a test computed. -/
theorem of_stepped {α : Type} {s : State} {f : State → α} {v : α} (h : stepped s f = some v) :
    ∃ t, step s = .next t ∧ f t = v := by
  obtain ⟨t, ht⟩ := step_goes s
  rw [stepped, ht] at h
  exact ⟨t, ht, Option.some.inj h⟩

/-- A command whose outcome a test computed. -/
theorem of_after {α : Type} {i : Instr} {s : State} {f : State → α} {v : α} (h : after i s f = some v) :
    ∃ t, exec i s = .next t ∧ f t = v := by
  obtain ⟨t, ht, _⟩ := exec_effect i s
  rw [after, ht] at h
  exact ⟨t, ht, Option.some.inj h⟩

theorem witness_DecodeAndEncodeAgree : Instr.wellFormed .sdecCbcNone = true ∧ decode 0x0000090A = .ok .sdecCbcNone := by decide

/-- One word for each condition of R55, each at the edge of its range. -/
theorem witness_IllegalWordsRaise :
    (0x00001001 : Reg32).extractLsb' 12 20 ≠ 0 ∧
    ((0x00000000 : Reg32).extractLsb' 0 8).toNat = 0x00 ∧ ((0x0000000B : Reg32).extractLsb' 0 8).toNat = 0x0B ∧
    ((0x0000000D : Reg32).extractLsb' 0 8).toNat = 0x0D ∧ 0x10 ≤ ((0x00000010 : Reg32).extractLsb' 0 8).toNat ∧
    ((0x00000204 : Reg32).extractLsb' 8 2).toNat = 2 ∧ ((0x00000C09 : Reg32).extractLsb' 10 2).toNat = 3 ∧
    ((0x0000010F : Reg32).extractLsb' 8 2).toNat ≠ 0 ∧ ((0x00000406 : Reg32).extractLsb' 10 2).toNat ≠ 0 ∧
    (withMove State.reset (.write 4 0x000 0x00001001)).host = .write 4 0x000 0x00001001 :: [] ∧
    (withMove State.reset (.write 4 0x000 0x00001001)).err = .noError := by decide

theorem witness_StepRunsDecodedCommand :
    (withMove s128 (.write 4 0x000 0x00000001)).host = .write 4 0x000 0x00000001 :: [] ∧
    (withMove s128 (.write 4 0x000 0x00000001)).err = .noError ∧ decode 0x00000001 = .ok .kexp := by decide

/-- The five clauses: in the error state `CLRERR`, `RST`, another word; with no error an illegal and a legal word. -/
theorem witness_CmdWriteDispatches :
    let bad : State := { s128 with err := .ioError }
    (withMove bad (.write 4 0x000 0x0000000E)).host = .write 4 0x000 0x0000000E :: [] ∧
    (withMove bad (.write 4 0x000 0x0000000E)).err ≠ .noError ∧
    (withMove bad (.write 4 0x000 0x0000000F)).host = .write 4 0x000 0x0000000F :: [] ∧
    (withMove bad (.write 4 0x000 0x00000002)).host = .write 4 0x000 0x00000002 :: [] ∧
    (withMove s128 (.write 4 0x000 0x00000000)).err = .noError ∧ (∀ i, decode 0x00000000 ≠ .ok i) ∧
    (withMove s128 (.write 4 0x000 0x00000002)).err = .noError ∧ decode 0x00000002 = .ok .encb := by
  refine ⟨rfl, by decide, rfl, rfl, rfl, fun i h => ?_, rfl, by decide⟩
  rw [show decode 0x00000000 = .error .unassignedOpc by decide] at h
  cases h

theorem witness_IdleStepChangesNothing : State.reset.host = [] := rfl

/-- A command refused in the error state, and an acknowledgement. -/
theorem witness_RecordedErrorIsSticky :
    (∃ t, ({ s128 with err := .ioError } : State).err ≠ .noError ∧
      step (withMove { s128 with err := .ioError } (.write 4 0x000 0x00000002)) = .next t ∧ t.err = .ioError) ∧
    ∃ t, step (withMove { s128 with err := .ioError } (.write 4 0x000 0x0000000E)) = .next t ∧ t.err = .noError := by
  obtain ⟨t, h, e⟩ := of_stepped (f := State.err) (v := .ioError)
    (s := withMove { s128 with err := .ioError } (.write 4 0x000 0x00000002)) (by decide)
  exact ⟨⟨t, by decide, h, e⟩, of_stepped (by decide)⟩

/-- A step for each clause: the chain opened, closed, the schedule dropped, made valid. -/
theorem witness_FlagsChangeOnlyAsListed :
    (∃ t, step (withMove s128 (.write 4 0x000 0x00000104)) = .next t ∧ s128.chainv = false ∧ t.chainv = true) ∧
    (∃ t, step (withMove chained (.write 4 0x000 0x00000004)) = .next t ∧ chained.chainv = true ∧ t.chainv = false) ∧
    (∃ t, step (withMove chained (.write 4 0x000 0x0000090A)) = .next t ∧ chained.chainv = true) ∧
    (∃ t, step (withMove s128 (.write 4 0x03C 0)) = .next t ∧ s128.rkvalid = true ∧ t.rkvalid = false) ∧
    (∃ t, step (withMove s128 .reset) = .next t ∧ s128.rkvalid = true ∧ t.rkvalid = false) ∧
    (∃ t, step (withMove s1 (.write 4 0x000 0x00000001)) = .next t ∧ s1.rkvalid = false ∧ t.rkvalid = true) := by
  obtain ⟨a, ha, ea⟩ := of_stepped (f := State.chainv) (v := true) (s := withMove s128 (.write 4 0x000 0x00000104)) (by decide)
  obtain ⟨b, hb, eb⟩ := of_stepped (f := State.chainv) (v := false) (s := withMove chained (.write 4 0x000 0x00000004)) (by decide)
  obtain ⟨c, hc⟩ := step_goes (withMove chained (.write 4 0x000 0x0000090A))
  obtain ⟨d, hd, ed⟩ := of_stepped (f := State.rkvalid) (v := false) (s := withMove s128 (.write 4 0x03C 0)) (by decide)
  obtain ⟨e, he, ee⟩ := of_stepped (f := State.rkvalid) (v := false) (s := withMove s128 .reset) (by decide)
  obtain ⟨g, hg, eg⟩ := of_stepped (f := State.rkvalid) (v := true) (s := withMove s1 (.write 4 0x000 0x00000001)) (by decide +kernel)
  exact ⟨⟨a, ha, rfl, ea⟩, ⟨b, hb, rfl, eb⟩, ⟨c, hc, rfl⟩, ⟨d, hd, rfl, ed⟩, ⟨e, he, rfl, ee⟩, ⟨g, hg, rfl, eg⟩⟩

/-- The last word of each buffer, and the edges of the holes, with `BUFCAP = 16` and `BUFCAP = 65520`. -/
theorem witness_RegisterMapIsAsListed :
    4 * 3 < (⟨0, .stripAll⟩ : Config).bufcap ∧ 4 * 7 < (⟨0, .stripAll⟩ : Config).bufcap + 16 ∧
    4 * 16379 < (⟨4094, .stripAll⟩ : Config).bufcap ∧ 4 * 16383 < (⟨4094, .stripAll⟩ : Config).bufcap + 16 ∧
    (2 : Nat) ≠ 4 ∧ (0x00002 : BitVec 20).toNat % 4 ≠ 0 ∧
    (0x0001C : BitVec 20).toNat = 0x01C ∧ 0x080 ≤ (0x00080 : BitVec 20).toNat ∧ (0x000FC : BitVec 20).toNat < 0x100 ∧
    0x1F0 ≤ (0x001F0 : BitVec 20).toNat ∧ (0x0FFFC : BitVec 20).toNat < 0x10000 ∧
    0x10000 + (⟨0, .stripAll⟩ : Config).bufcap ≤ (0x10010 : BitVec 20).toNat ∧ (0x1FFFC : BitVec 20).toNat < 0x20000 ∧
    0x20000 + (⟨0, .stripAll⟩ : Config).bufcap + 16 ≤ (0x20020 : BitVec 20).toNat := by decide

/-- A read of STATUS, of the last word of a schedule, of the last full word of an output, of a refused offset. -/
theorem witness_HostReadHasNoSideEffect :
    (withMove s128 (.read 4 0x004)).host = .read 4 0x004 :: [] ∧ s128.Specified .status ∧ s128.Specified (.rks 43) ∧
    ({ s128 with outlen := 16 } : State).Specified (.obuf 12) ∧ (withMove s128 (.read 2 0x004)).host = .read 2 0x004 :: [] :=
  ⟨rfl, trivial, ⟨rfl, by decide⟩, by show 12 + 3 < 16; decide, rfl⟩

theorem witness_KeyWriteDropsSchedule :
    (withMove s128 (.write 4 (BitVec.ofNat 20 (0x020 + 4 * 7)) 0)).host = .write 4 (BitVec.ofNat 20 (0x020 + 4 * 7)) 0 :: [] ∧
    (withMove s128 (.write 4 0x008 16)).host = .write 4 0x008 16 :: [] := ⟨rfl, rfl⟩

/-- One state for each register, and the last word of IBUF. -/
theorem witness_PlainWriteOnlyStores :
    (withMove s128 (.write 4 0x00C 16)).host = .write 4 0x00C 16 :: [] ∧
    (withMove s128 (.write 4 0x010 4097)).host = .write 4 0x010 4097 :: [] ∧
    (withMove s128 (.write 4 (BitVec.ofNat 20 (0x040 + 4 * 3)) 1)).host = .write 4 (BitVec.ofNat 20 (0x040 + 4 * 3)) 1 :: [] ∧
    (withMove s128 (.write 4 (BitVec.ofNat 20 (0x050 + 4 * 3)) 1)).host = .write 4 (BitVec.ofNat 20 (0x050 + 4 * 3)) 1 :: [] ∧
    4 * 1023 < s128.cfg.bufcap ∧ s128.ibuf.wf = true ∧
    (withMove s128 (.write 4 (BitVec.ofNat 20 (0x10000 + 4 * 1023)) 1)).host =
      .write 4 (BitVec.ofNat 20 (0x10000 + 4 * 1023)) 1 :: [] :=
  ⟨rfl, rfl, rfl, rfl, by decide, by decide, rfl⟩

/-- One offset for each read-only register, at the ends of the ranges. -/
theorem witness_ReadOnlyWriteIsIgnored :
    (withMove s128 (.write 4 0x004 1)).host = .write 4 0x004 1 :: [] ∧
    0x060 ≤ (0x0007C : BitVec 20).toNat ∧ (0x0007C : BitVec 20).toNat ≤ 0x07C ∧
    0x100 ≤ (0x001EC : BitVec 20).toNat ∧ (0x001EC : BitVec 20).toNat ≤ 0x1EC ∧
    0x20000 ≤ (0x2100C : BitVec 20).toNat ∧ (0x2100C : BitVec 20).toNat < 0x20000 + s128.cfg.bufcap + 16 :=
  ⟨rfl, by decide⟩

/-- A refused access of each kind. -/
theorem witness_RefusedAccessChangesNothing :
    (2 : Nat) ≠ 4 ∧ (0x00006 : BitVec 20).toNat % 4 ≠ 0 ∧ (0x0001C : BitVec 20).toNat = 0x01C ∧
    0x080 ≤ (0x00080 : BitVec 20).toNat ∧ (0x00080 : BitVec 20).toNat < 0x100 ∧
    0x1F0 ≤ (0x001F0 : BitVec 20).toNat ∧ (0x001F0 : BitVec 20).toNat < 0x10000 ∧
    0x10000 + s128.cfg.bufcap ≤ (0x11000 : BitVec 20).toNat ∧ (0x11000 : BitVec 20).toNat < 0x20000 ∧
    0x20000 + s128.cfg.bufcap + 16 ≤ (0x21010 : BitVec 20).toNat ∧
    (withMove s128 (.write 2 0x004 1)).host = .write 2 0x004 1 :: [] ∧
    (withMove s128 (.read 4 0x0001C)).host = .read 4 0x0001C :: [] := by decide

/-- The last byte of an output, a valid byte of a word that straddles `OUTLEN`, the last word of a schedule. -/
theorem witness_WindowPacksBigEndian :
    (3 < 4 ∧ 12 + 3 < ({ s128 with outlen := 16 } : State).outlen.toNat) ∧
    (1 < 4 ∧ 4 + 1 < ({ s128 with outlen := 6 } : State).outlen.toNat ∧
      ¬ 4 + 2 < ({ s128 with outlen := 6 } : State).outlen.toNat) ∧
    s128.rkvalid = true ∧ 43 < 4 * (s128.nr.toNat + 1) := by decide

/-- A word that straddles `OUTLEN` reads its valid bytes in bits 31:16 (20_memory.md R37). -/
theorem test_read_straddles :
    let s : State := { s128 with obuf := bufOf [0xa0, 0xa1, 0xa2, 0xa3, 0xa4, 0xa5], outlen := 6 }
    (s.portRead (.obuf 4)).extractLsb' 16 16 = 0xa4a5 := by
  intro s
  have h : ∀ a b c d : Byte, (packWord ⟨a, b, c, d⟩).extractLsb' 16 16 = a ++ b := by
    intro a b c d
    apply BitVec.eq_of_getLsbD_eq
    intro i hi
    simp only [packWord, BitVec.getLsbD_extractLsb', BitVec.getLsbD_append]
    interval_cases i <;> simp
  rw [show s.portRead (.obuf 4) = packWord ⟨s.obufByte 4, s.obufByte 5, s.obufByte 6, s.obufByte 7⟩ from rfl, h]
  decide

theorem witness_WrittenWordReadsBack :
    (withInput s128 msg).ibuf.wf = true ∧ (0 : Fin 8) ≠ 7 ∧ (3 : Fin 4) ≠ 0 := by decide

/-- A pending `RST`, a pending reset. -/
theorem witness_RstResets :
    (withMove { s128 with err := .ioError } (.write 4 0x000 0x0000000F)).host = .write 4 0x000 0x0000000F :: [] ∧
    (withMove s128 .reset).host = .reset :: [] := ⟨rfl, rfl⟩

theorem witness_FieldLaws : (0x53 : Byte) ≠ 0 ∧ gmul 0x53 0xca = 0x01 := by decide

/-- The last round constant that has one after it. -/
theorem witness_SubstitutionTablesAgree : 1 ≤ 9 ∧ 9 < 10 := by decide

theorem witness_ProductTablesHoldProducts : mulRows 0x0E = some mul0eRows := by decide

/-- A word of each of the three kinds, for 16- and 32-byte keys, and lengths beside the legal ones. -/
theorem witness_ExpandFollowsRecurrence :
    (counting 16).length = 16 ∧ (counting 24).length = 24 ∧ (counting 32).length = 32 ∧
    ((counting 33).length ≠ 16 ∧ (counting 33).length ≠ 24 ∧ (counting 33).length ≠ 32) ∧
    (4 % 4 = 0 ∧ 4 ≤ 4 ∧ 4 < 44) ∧ (12 % 8 ≠ 0 ∧ 12 % 8 = 4 ∧ 12 < 60) ∧ (10 % 6 ≠ 0 ∧ 10 % 6 = 4 ∧ (6 ≠ 8 ∨ 10 % 6 ≠ 4)) := by
  decide

theorem witness_RoundKeysGroupWords : 3 < 4 ∧ ∃ w, expand (counting 16) = .ok w := by
  refine ⟨by decide, ?_⟩
  rcases expand_cases (counting 16) with ⟨_, w, h, _⟩ | ⟨h, _⟩
  · exact ⟨w, h⟩
  · exact absurd h (by decide)

theorem witness_KexpExpandsKey :
    s1.klen = 16 ∧ ({ s1 with klen := 24 } : State).klen = 24 ∧ ({ s1 with klen := 32 } : State).klen = 32 ∧
    (State.reset.klen ≠ 16 ∧ State.reset.klen ≠ 24 ∧ State.reset.klen ≠ 32) := by decide

/-- The last row and column, and a round between the first and the last of the schedule of V12. -/
theorem witness_TransformsAndRoundsAreAsListed :
    (3 : Nat) < 4 ∧ 1 ≤ 10 ∧ s128.schedule.length = 4 * (10 + 1) ∧ 1 ≤ 9 ∧ 9 < 10 := by decide

/-- Ready with a schedule, ready with a key length only, and not ready. -/
theorem witness_KeyReady : s128.KeyReady ∧ s1.KeyReady ∧ ¬ State.reset.KeyReady :=
  ⟨.inl rfl, .inr (by decide), fun h => by rcases h with h | h <;> revert h <;> decide⟩

theorem witness_BlockCommandsCipherDin : s1.KeyReady ∧ ¬ State.reset.KeyReady := witness_KeyReady.2

theorem witness_EcbBlockCommandsCipherDin : s1.KeyReady ∧ ¬ State.reset.KeyReady := witness_KeyReady.2

/-- Inputs of 0, 15, 16 bytes and of `BUFCAP` and `BUFCAP + 1`. -/
theorem witness_PadCommandsPadInput :
    (withInput State.reset []).inlen.toNat ≤ State.reset.cfg.bufcap ∧
    (withInput State.reset (counting 16)).inlen.toNat % 16 = 0 ∧ (withInput State.reset (counting 15)).inlen.toNat % 16 ≠ 0 ∧
    ({ State.reset with inlen := 4096 } : State).inlen.toNat ≤ State.reset.cfg.bufcap ∧
    State.reset.cfg.bufcap < ({ State.reset with inlen := 4097 } : State).inlen.toNat := by decide

theorem witness_Pkcs7UnpadValidates :
    (∃ n, 1 ≤ n ∧ n ≤ 16 ∧ List.replicate 16 (0x10 : Byte) = [] ++ List.replicate n (BitVec.ofNat 8 n)) ∧
    ∀ out, unpadPkcs7 [] ≠ .ok out := by
  refine ⟨⟨16, by decide, by decide, by decide⟩, fun out h => ?_⟩
  rw [show unpadPkcs7 [] = .error .invalidPadding by decide] at h
  cases h

/-- A valid padding of one byte, a valid one of sixteen, an empty input, which has none, and one byte too many. -/
theorem witness_UnpadCommandsUnpadInput :
    (withInput State.reset [0xaa, 0x01]).input = [0xaa] ++ List.replicate 1 (BitVec.ofNat 8 1) ∧
    (withInput State.reset (List.replicate 16 0x10)).input = [] ++ List.replicate 16 (BitVec.ofNat 8 16) ∧
    (¬ ∃ out n, 1 ≤ n ∧ n ≤ 16 ∧ State.reset.input = out ++ List.replicate n (BitVec.ofNat 8 n)) ∧
    State.reset.inlen.toNat ≤ State.reset.cfg.bufcap ∧
    State.reset.cfg.bufcap < ({ State.reset with inlen := 4097 } : State).inlen.toNat := by
  refine ⟨by decide, by decide, ?_, by decide, by decide⟩
  rintro ⟨out, n, h1, _, h⟩
  have h0 : State.reset.input.length = 0 := by decide
  rw [h] at h0
  simp at h0
  omega

theorem witness_UnpadUndoesPad :
    pad .none (counting 16) = .ok (counting 16) ∧ pad .zero [0x41] = .ok (0x41 :: List.replicate 15 0x00) ∧
    pad .pkcs7 [] = .ok (List.replicate 16 0x10) := by decide

/-- The four clauses with a key, and the one without. -/
theorem witness_MinitStartsStream :
    s128.KeyReady ∧ s128.ivlen = 16 ∧ chained.KeyReady ∧ chained.ivlen = 0 ∧
    ({ s128 with ivlen := 8 } : State).ivlen ≠ 0 ∧ ({ s128 with ivlen := 8 } : State).ivlen ≠ 16 ∧ ¬ State.reset.KeyReady :=
  ⟨.inl rfl, rfl, .inl rfl, rfl, by decide, by decide, witness_KeyReady.2.2⟩

theorem witness_CbcBlockCommandsChain :
    chained.KeyReady ∧ chained.chainv = true ∧ s128.KeyReady ∧ s128.chainv = false ∧ ¬ State.reset.KeyReady :=
  ⟨.inl rfl, rfl, .inl rfl, rfl, witness_KeyReady.2.2⟩

theorem witness_ModeRoundTrip : Mode.cbc = .cbc := rfl

theorem witness_CbcErrorPropagates : blk 0x04 0 0 0 ≠ .zero ∧ [p0] ≠ [] := by decide

/-- A stream can start: in both modes, with every policy, at the capacity and on no input. -/
theorem witness_StartReady : s128.StartReady .ecb ∧ s128.StartReady .cbc ∧ s1.StartReady .ecb :=
  ⟨⟨.inl rfl, fun h => by cases h⟩, ⟨.inl rfl, fun _ => rfl⟩, ⟨.inr (by decide), fun h => by cases h⟩⟩

theorem witness_SencEncryptsPaddedInput :
    (withInput s128 msg).inlen.toNat ≤ (withInput s128 msg).cfg.bufcap ∧ (withInput s128 msg).StartReady .cbc ∧
    (PadPolicy.pkcs7 = .none → (withInput s128 msg).inlen.toNat % 16 = 0) ∧
    (PadPolicy.none = .none → (withInput s128 (counting 16)).inlen.toNat % 16 = 0) :=
  ⟨by decide, ⟨.inl rfl, fun _ => rfl⟩, fun h => (by cases h), fun _ => by decide⟩

/-- A tampered length, and an input with no padding byte in its range: no block at all. -/
theorem witness_StreamDataErrorsLeave :
    (withInput s128 msg).inlen.toNat ≤ (withInput s128 msg).cfg.bufcap ∧ (withInput s128 msg).StartReady .cbc ∧
    (withInput s128 msg).inlen.toNat % 16 ≠ 0 ∧ s128.inlen.toNat ≤ s128.cfg.bufcap ∧ s128.StartReady .cbc ∧
    s128.inlen.toNat % 16 = 0 ∧
    ¬ ∃ out k, 1 ≤ k ∧ k ≤ 16 ∧ bytesOfBlocks (decBlocks .cbc s128.activeSchedule
      (blocksOfBytes s128.input (s128.inlen.toNat / 16)) (s128.startPrev .cbc)).1 =
        out ++ List.replicate k (BitVec.ofNat 8 k) := by
  refine ⟨by decide, ⟨.inl rfl, fun _ => rfl⟩, by decide, by decide, ⟨.inl rfl, fun _ => rfl⟩, by decide, ?_⟩
  rintro ⟨out, k, h1, _, h⟩
  have h0 := congrArg List.length h
  simp at h0
  have : s128.inlen.toNat = 0 := by decide
  omega

/-- V50: the ciphertext of `M` under PKCS7 decrypts to `M` and three bytes of value 3; the same under Zero
and None, on no input. -/
theorem witness_SdecDecryptsInput :
    let s := withInput s128 (bytesOf 0x031a5ef0 0xe4bc7756 0xeccc5e2c 0x438f1d6d)
    s.inlen.toNat ≤ s.cfg.bufcap ∧ s.StartReady .cbc ∧ s.inlen.toNat % 16 = 0 ∧
    bytesOfBlocks (decBlocks .cbc s.activeSchedule (blocksOfBytes s.input (s.inlen.toNat / 16)) (s.startPrev .cbc)).1 =
      msg ++ List.replicate 3 (BitVec.ofNat 8 3) ∧
    s128.inlen.toNat % 16 = 0 ∧ ([] : List Byte) = unpadZeros s128.cfg.zeroUnpad [] :=
  ⟨by decide, ⟨.inl rfl, fun _ => rfl⟩, by decide, by decide +kernel, by decide, by decide⟩

/-- Too long an input; no key; no IV; an IV of 17 bytes. -/
theorem witness_StreamSetupErrorsInOrder :
    sencInstr .cbc .zero = sencInstr .cbc .zero ∧ s128.cfg.bufcap < ({ s128 with inlen := 4097 } : State).inlen.toNat ∧
    State.reset.inlen.toNat ≤ State.reset.cfg.bufcap ∧ ¬ State.reset.KeyReady ∧
    chained.inlen.toNat ≤ chained.cfg.bufcap ∧ chained.KeyReady ∧ chained.ivlen = 0 ∧
    ({ s128 with ivlen := 17 } : State).ivlen ≠ 0 ∧ ({ s128 with ivlen := 17 } : State).ivlen ≠ 16 :=
  ⟨rfl, by decide, by decide, witness_KeyReady.2.2, by decide, .inl rfl, rfl, by decide, by decide⟩

/-- `SENC.CBC.NONE` of nothing, and its inverse, with K128's length of key and no schedule yet. -/
theorem witness_StreamRoundTrip :
    let s : State := { s1 with iv := iv0, ivlen := 16 }
    ∃ t u : State, s.ScheduleCoherent ∧ s.inlen.toNat ≤ s.cfg.bufcap ∧ s.StartReady .cbc ∧ pad .none s.input = .ok [] ∧
      exec (sencInstr .cbc .none) s = .next t ∧ u.ScheduleCoherent ∧ u.cfg = s.cfg ∧ u.key = s.key ∧ u.klen = s.klen ∧
      (u.ivlen = 16 ∧ u.iv = s.iv) ∧ u.inlen = t.outlen ∧ u.inlen.toNat ≤ u.cfg.bufcap ∧
      u.input = t.obuf.readBytes 0 t.outlen.toNat := by
  obtain ⟨t, ht, ho⟩ := of_after (i := sencInstr .cbc .none) (s := { s1 with iv := iv0, ivlen := 16 }) (f := State.outlen)
    (v := 0) (by decide +kernel)
  refine ⟨t, { s1 with iv := iv0, ivlen := 16 }, ⟨fun h => (by cases h), fun _ => ⟨rfl, rfl⟩⟩, by decide,
    ⟨.inr (by decide), fun _ => rfl⟩, by decide, ht, ⟨fun h => (by cases h), fun _ => ⟨rfl, rfl⟩⟩, rfl, rfl, rfl, ⟨rfl, rfl⟩,
    by rw [ho]; rfl, by decide, by rw [ho]; rfl⟩

/-- Two blocks, and no block. -/
theorem witness_StreamEqualsBlockCommands :
    (withInput s128 (counting 32)).inlen.toNat = 16 * 2 ∧
    (withInput s128 (counting 32)).inlen.toNat ≤ (withInput s128 (counting 32)).cfg.bufcap ∧
    (withInput s128 (counting 32)).StartReady .cbc ∧ s128.inlen.toNat = 16 * 0 :=
  ⟨by decide, by decide, ⟨.inl rfl, fun _ => rfl⟩, by decide⟩

/-- A setup error of a buffer command, one of another command. -/
theorem witness_RaisedErrorIsRecorded :
    s128.err = .noError ∧
    (∃ t, exec .sencCbcZero { s128 with ivlen := 0 } = .next t ∧ t.err = .missingIV) ∧
    ∃ t, exec .kexp State.reset = .next t ∧ t.err = .invalidKeySize :=
  ⟨rfl, of_after (by decide), of_after (by decide)⟩

/-- A data error of a stream, one of a padding command. -/
theorem witness_DataErrorKeepsTheRest :
    s128.err = .noError ∧
    (∃ t, exec .sdecCbcNone (withInput s128 msg) = .next t ∧ t.err.isData = true) ∧
    (∃ t, exec .sdecEcbNone (withInput s128 msg) = .next t ∧ t.err.isData = true) ∧
    ∃ t, exec .padNone (withInput s128 msg) = .next t ∧ t.err.isData = true :=
  ⟨rfl, of_after (f := fun t => t.err.isData) (by decide +kernel), of_after (f := fun t => t.err.isData) (by decide +kernel),
    of_after (f := fun t => t.err.isData) (by decide)⟩

theorem witness_CommandsKeepTheirInputs : (∃ t, exec .encb s128 = .next t) ∧ Instr.encb ≠ .rst := by
  obtain ⟨t, h, _⟩ := exec_effect .encb s128
  exact ⟨⟨t, h⟩, by decide⟩

/-- The input of `M` with another byte at index 13. -/
theorem witness_SurplusInputIsNotRead :
    (∃ t, exec .padPkcs7 (withInput s128 msg) = .next t) ∧
    (∀ k, k < (withInput s128 msg).inlen.toNat → ((bufOf msg).write 13 0xff).read k = (withInput s128 msg).ibuf.read k) ∧
    ((bufOf msg).write 13 0xff).read 13 ≠ (bufOf msg).read 13 := by
  obtain ⟨t, h, _⟩ := exec_effect .padPkcs7 (withInput s128 msg)
  exact ⟨⟨t, h⟩, by decide, by decide⟩

/-- A key of 16 bytes with another word 4. -/
theorem witness_KeyTailIsNotRead :
    (∃ t, exec .kexp s1 = .next t) ∧ (∀ j : Fin 8, 4 * j.val < s1.klen.toNat → key15[j] = s1.key[j]) ∧ key15[4] ≠ s1.key[4] := by
  obtain ⟨t, h, _⟩ := exec_effect .kexp s1
  exact ⟨⟨t, h⟩, by decide, by decide⟩

/-- A state with a valid schedule that meets every invariant: `K128` expanded. -/
theorem witness_Invariants : s128.Inv := by
  refine ⟨⟨fun _ => ⟨by decide, by decide, by decide, ?_⟩, fun h => by cases h⟩, ⟨by decide, by decide, ?_, ?_⟩, ?_, fun _ => rfl⟩
  · have h : (expand s128.keyBytes).toOption = some s128.schedule := by decide +kernel
    revert h
    cases expand s128.keyBytes with
    | ok w => intro h; rw [Option.some.inj h]
    | error e => intro h; cases h
  · intro c h; cases h
  · intro c h; cases h
  · show (0 : Nat) ≤ 4096 + 16; decide

theorem witness_StepKeepsScheduleCoherent : s128.ScheduleCoherent ∧ ∃ t, step s128 = .next t :=
  ⟨witness_Invariants.1, step_goes s128⟩

theorem witness_StepKeepsBuffersCanonical : s128.BuffersCanonical ∧ ∃ t, step (withMove s128 (.write 4 0x10000 1)) = .next t :=
  ⟨witness_Invariants.2.1, step_goes _⟩

theorem witness_StepKeepsOutputBounded : s128.OutputBounded ∧ ∃ t, step (withMove s128 (.write 4 0x000 0x00000007)) = .next t :=
  ⟨witness_Invariants.2.2.1, step_goes _⟩

theorem witness_StepKeepsErrorRecorded : s128.ErrorRecorded ∧ ∃ t, step (withMove s128 (.write 4 0x000 0x0000000E)) = .next t :=
  ⟨witness_Invariants.2.2.2, step_goes _⟩

/-- Two steps from a state that meets the invariants: a write of IVLEN, then nothing pending. -/
theorem witness_ReachableStatesMeetInvariants : s128.Inv ∧ ∃ t, core.run 2 (withMove s128 (.write 4 0x00C 16)) = .next t :=
  ⟨witness_Invariants, _, rfl⟩

end Sys2Proof.Tests
end

section
/-! SUPPORT. What a step can do, in one inversion lemma with the effect of a command in it, and what the setup of a command leaves (20_memory.md R43, 41_key_schedule.md R86, 44_mode_controller.md R151). -/

namespace Sys2Proof.Machine

/-! ### The steps -/

/-- The state `t` that a step leaves from the state `s`, by what the host's oldest move is (20_memory.md R43). -/
inductive StepEffect (s : State) : State → Prop where
  /-- No move is pending (60_exceptions.md R193). -/
  | idle (hs : s.host = []) : StepEffect s s
  /-- A host read (10_state.md R32). -/
  | hostRead (w : Nat) (off : BitVec 20) (rest : List HostMove) (hs : s.host = .read w off :: rest) :
      StepEffect s ({ s with host := rest }.hostRead w off)
  /-- A host write of anything but `CMD` (10_state.md R32 to R34). -/
  | portWritten (w : Nat) (off : BitVec 20) (v : Reg32) (rest : List HostMove)
      (hs : s.host = .write w off v :: rest) (hp : portOf s.cfg.bufcap w off ≠ .cmd) :
      StepEffect s ({ s with host := rest }.portWrite (portOf s.cfg.bufcap w off) v)
  /-- A command word that the error state does not hold back (30_encoding.md R54, 60_exceptions.md R197). -/
  | commandRun (c : Reg32) (rest : List HostMove) (i : Instr) (t : State) (hs : s.host = .write 4 0x000 c :: rest)
      (hd : decode c = .ok i) (hgate : s.err = .noError ∨ i = .clrerr ∨ i = .rst)
      (he : Effect { s with host := rest } i t) : StepEffect s t
  /-- An illegal word with no error recorded (30_encoding.md R54). -/
  | illegalWord (c : Reg32) (rest : List HostMove) (hs : s.host = .write 4 0x000 c :: rest) (he : s.err = .noError) :
      StepEffect s ({ s with host := rest }.raise c false .illegalCommand)
  /-- A word that the error state holds back (60_exceptions.md R197). -/
  | heldBack (c : Reg32) (rest : List HostMove) (hs : s.host = .write 4 0x000 c :: rest) (he : s.err ≠ .noError) :
      StepEffect s { s with host := rest }
  /-- The reset event (70_reset_and_hazards.md R220). -/
  | resetEvent (rest : List HostMove) (hs : s.host = .reset :: rest) : StepEffect s { s with host := rest }.resetAll

/-- Everything a step that goes on can leave. -/
theorem stepEffect_of_step {s t : State} (h : step s = .next t) : StepEffect s t := by
  rcases step_cases h with ⟨hs, ht⟩ | ⟨w, off, rest, hs, ht⟩ | ⟨c, rest, hs, ht⟩ | ⟨w, off, v, rest, hs, hp, ht⟩ |
    ⟨rest, hs, ht⟩
  · cases ht; exact .idle hs
  · cases ht; exact .hostRead w off rest hs
  · rcases cmdWrite_cases c { s with host := rest } with ⟨i, hd, hgate, hc⟩ | ⟨he, _, hc⟩ | ⟨he, _, _, hc⟩ <;>
      rw [hc] at ht
    · exact .commandRun c rest i t hs hd hgate (effect_of_exec ht.symm)
    · cases ht; exact .illegalWord c rest hs he
    · cases ht; exact .heldBack c rest hs he
  · cases ht; exact .portWritten w off v rest hs hp
  · cases ht; exact .resetEvent rest hs

/-- What takes moves, reads, writes, commands and errors keep, every step keeps. -/
theorem step_keeps {P : State → Prop} (hhost : ∀ s rest, P s → P { s with host := rest })
    (hread : ∀ s w off, P s → P (s.hostRead w off))
    (hwrite : ∀ s w off v, P s → P (s.portWrite (portOf s.cfg.bufcap w off) v))
    (hcommand : ∀ s i t, P s → Effect s i t → P t) (hillegal : ∀ s c, P s → P (s.raise c false .illegalCommand))
    {s t : State} (hs : P s) (h : step s = .next t) : P t := by
  cases stepEffect_of_step h with
  | idle => exact hs
  | hostRead w off rest => exact hread _ w off (hhost s rest hs)
  | portWritten w off v rest => exact hwrite { s with host := rest } w off v (hhost s rest hs)
  | commandRun _ rest i _ _ _ _ he => exact hcommand _ i t (hhost s rest hs) he
  | illegalWord c rest => exact hillegal _ c (hhost s rest hs)
  | heldBack _ rest => exact hhost s rest hs
  | resetEvent rest => exact hcommand _ .rst _ (hhost s rest hs) (.reset rfl)

/-! ### The setup of a command -/

/-- `ensure_schedule` leaves the state it found or expands the key (41_key_schedule.md R86). -/
theorem ensureSchedule_ok_cases {s u : State} (h : s.ensureSchedule = .ok u) :
    (s.rkvalid = true ∧ u = s) ∨
    (s.rkvalid = false ∧ keyLengthLegal s.klen.toNat = true ∧ u = s.setSchedule s.expansion) := by
  unfold State.ensureSchedule at h
  cases hv : s.rkvalid with
  | true =>
    rw [if_pos hv] at h
    cases h
    exact .inl ⟨rfl, rfl⟩
  | false =>
    rw [if_neg (by simp [hv]), expandKey_eq] at h
    split at h
    · cases h
      exact .inr ⟨rfl, ‹_›, rfl⟩
    · cases h

/-- What an expansion of the key keeps, `ensure_schedule` keeps (41_key_schedule.md R86). -/
theorem ensureSchedule_keeps {P : State → Prop}
    (hexpand : ∀ s, keyLengthLegal s.klen.toNat = true → P s → P (s.setSchedule s.expansion))
    {s u : State} (hs : P s) (h : s.ensureSchedule = .ok u) : P u := by
  rcases ensureSchedule_ok_cases h with ⟨_, rfl⟩ | ⟨_, hk, rfl⟩
  · exact hs
  · exact hexpand s hk hs

/-- What an expansion, the end and the start of a chain keep, a stream start keeps (44_mode_controller.md R151). -/
theorem streamStart_keeps {P : State → Prop}
    (hexpand : ∀ s, keyLengthLegal s.klen.toNat = true → P s → P (s.setSchedule s.expansion))
    (hclose : ∀ s, P s → P s.closeChain) (hopen : ∀ s, P s → P s.openChain)
    {s u : State} {m : Mode} (hs : P s) (h : s.streamStart m = .ok u) : P u := by
  unfold State.streamStart at h
  split at h
  · cases h
  · rename_i v hv
    have ensured : P v := ensureSchedule_keeps hexpand hs hv
    cases m with
    | ecb => cases h; exact hclose v ensured
    | cbc =>
      simp only at h
      split at h
      · cases h
      · split at h
        · cases h
        · cases h; exact hopen v ensured

end Sys2Proof.Machine
end

section
/-! SUPPORT. The host's window: which offsets select which register, and what an access of each does (10_state.md R17, R32 to R34, 20_memory.md R36 to R41). -/

namespace Sys2Proof.Machine

/-! ### The register map -/

section RegisterMap
variable {bufcap a : Nat}

theorem portAt_key (h : 0x020 ≤ a ∧ a ≤ 0x03C) : portAt bufcap a = .key (Fin.ofNat 8 ((a - 0x020) / 4)) := by
  simp (disch := omega) only [portAt, if_neg, if_pos]

theorem portAt_iv (h : 0x040 ≤ a ∧ a ≤ 0x04C) : portAt bufcap a = .iv (Fin.ofNat 4 ((a - 0x040) / 4)) := by
  simp (disch := omega) only [portAt, if_neg, if_pos]

theorem portAt_din (h : 0x050 ≤ a ∧ a ≤ 0x05C) : portAt bufcap a = .din (Fin.ofNat 4 ((a - 0x050) / 4)) := by
  simp (disch := omega) only [portAt, if_neg, if_pos]

theorem portAt_dout (h : 0x060 ≤ a ∧ a ≤ 0x06C) : portAt bufcap a = .dout (Fin.ofNat 4 ((a - 0x060) / 4)) := by
  simp (disch := omega) only [portAt, if_neg, if_pos]

theorem portAt_prev (h : 0x070 ≤ a ∧ a ≤ 0x07C) : portAt bufcap a = .prev (Fin.ofNat 4 ((a - 0x070) / 4)) := by
  simp (disch := omega) only [portAt, if_neg, if_pos]

theorem portAt_rks (h : 0x100 ≤ a ∧ a ≤ 0x1EC) : portAt bufcap a = .rks (Fin.ofNat 60 ((a - 0x100) / 4)) := by
  simp (disch := omega) only [portAt, if_neg, if_pos]

theorem portAt_ibuf (h : 0x10000 ≤ a ∧ a ≤ 0x10000 + bufcap - 4) : portAt bufcap a = .ibuf (a - 0x10000) := by
  simp (disch := omega) only [portAt, if_neg, if_pos]

theorem portAt_obuf (hcap : bufcap < 0x10000) (h : 0x20000 ≤ a ∧ a ≤ 0x20000 + bufcap + 12) :
    portAt bufcap a = .obuf (a - 0x20000) := by
  simp (disch := omega) only [portAt, if_neg, if_pos]

/-- The offsets that an aligned word access finds no register at (10_state.md R17). -/
def ReservedOffset (bufcap a : Nat) : Prop :=
  a = 0x01C ∨ (0x080 ≤ a ∧ a < 0x100) ∨ (0x1F0 ≤ a ∧ a < 0x10000) ∨ (0x10000 + bufcap ≤ a ∧ a < 0x20000) ∨
    0x20000 + bufcap + 16 ≤ a

theorem portAt_reserved (hcap : 4 ≤ bufcap) (halign : a % 4 = 0) (h : ReservedOffset bufcap a) :
    portAt bufcap a = .refused := by
  unfold ReservedOffset at h
  simp (disch := omega) only [portAt, if_neg]

end RegisterMap

/-- A word access at an aligned offset of the window selects what the map lists there (20_memory.md R38). -/
theorem portOf_aligned {bufcap a : Nat} (halign : a % 4 = 0) (hlt : a < 2 ^ 20) :
    portOf bufcap 4 (BitVec.ofNat 20 a) = portAt bufcap a := by
  have hoff : (BitVec.ofNat 20 a).toNat = a := BitVec.toNat_ofNat .. ▸ Nat.mod_eq_of_lt hlt
  rw [portOf, hoff, if_pos ⟨rfl, halign⟩]

theorem portOf_misaligned {bufcap w : Nat} {off : BitVec 20} (h : w ≠ 4 ∨ off.toNat % 4 ≠ 0) :
    portOf bufcap w off = .refused := if_neg (by omega)

theorem portOf_reserved {c : Config} {off : BitVec 20} (h : ReservedOffset c.bufcap off.toNat) :
    portOf c.bufcap 4 off = .refused := by
  by_cases halign : off.toNat % 4 = 0
  · obtain ⟨n, hn, _⟩ := bufcap_eq c
    rw [portOf, if_pos ⟨rfl, halign⟩]
    exact portAt_reserved (by omega) halign h
  · exact portOf_misaligned (.inr halign)

/-- Word `j` of an array stands `4j` bytes above the array's offset (20_memory.md R36). -/
theorem fin_ofNat_wordIndex {n : Nat} [NeZero n] (base : Nat) (j : Fin n) :
    Fin.ofNat n ((base + 4 * j.val - base) / 4) = j := by
  rw [Nat.add_sub_cancel_left, Nat.mul_div_cancel_left _ (by omega)]
  exact Fin.ofNat_val_eq_self j

section WordOffsets
variable (bufcap : Nat)

theorem portOf_key (j : Fin 8) : portOf bufcap 4 (BitVec.ofNat 20 (0x020 + 4 * j.val)) = .key j := by
  rw [portOf_aligned (by omega) (by omega), portAt_key (by omega), fin_ofNat_wordIndex]

theorem portOf_iv (j : Fin 4) : portOf bufcap 4 (BitVec.ofNat 20 (0x040 + 4 * j.val)) = .iv j := by
  rw [portOf_aligned (by omega) (by omega), portAt_iv (by omega), fin_ofNat_wordIndex]

theorem portOf_din (j : Fin 4) : portOf bufcap 4 (BitVec.ofNat 20 (0x050 + 4 * j.val)) = .din j := by
  rw [portOf_aligned (by omega) (by omega), portAt_din (by omega), fin_ofNat_wordIndex]

theorem portOf_dout (j : Fin 4) : portOf bufcap 4 (BitVec.ofNat 20 (0x060 + 4 * j.val)) = .dout j := by
  rw [portOf_aligned (by omega) (by omega), portAt_dout (by omega), fin_ofNat_wordIndex]

theorem portOf_prev (j : Fin 4) : portOf bufcap 4 (BitVec.ofNat 20 (0x070 + 4 * j.val)) = .prev j := by
  rw [portOf_aligned (by omega) (by omega), portAt_prev (by omega), fin_ofNat_wordIndex]

theorem portOf_rks (j : Fin 60) : portOf bufcap 4 (BitVec.ofNat 20 (0x100 + 4 * j.val)) = .rks j := by
  rw [portOf_aligned (by omega) (by omega), portAt_rks (by omega), fin_ofNat_wordIndex]

end WordOffsets

theorem portOf_ibuf {c : Config} {k : Nat} (h : 4 * k < c.bufcap) :
    portOf c.bufcap 4 (BitVec.ofNat 20 (0x10000 + 4 * k)) = .ibuf (4 * k) := by
  obtain ⟨n, hn, _⟩ := bufcap_eq c
  rw [portOf_aligned (by omega) (by omega), portAt_ibuf (by omega), Nat.add_sub_cancel_left]

theorem portOf_obuf {c : Config} {k : Nat} (h : 4 * k < c.bufcap + 16) :
    portOf c.bufcap 4 (BitVec.ofNat 20 (0x20000 + 4 * k)) = .obuf (4 * k) := by
  obtain ⟨n, hn, _⟩ := bufcap_eq c
  rw [portOf_aligned (by omega) (by omega), portAt_obuf (by omega) (by omega), Nat.add_sub_cancel_left]

/-- Only the offsets within the capacity are those of IBUF (10_state.md R17, 20_memory.md R41). -/
theorem portAt_eq_ibuf {bufcap a k : Nat} (h : portAt bufcap a = .ibuf k) :
    0x10000 ≤ a ∧ a ≤ 0x10000 + bufcap - 4 ∧ k = a - 0x10000 := by
  by_contra hk
  revert h
  repeat' refine ite_ne_of (fun hc => ?_) ?_
  all_goals simp only [ne_eq, reduceCtorEq, not_false_eq_true, Port.ibuf.injEq]
  omega

/-- A word of IBUF that the window admits lies within `BUFCAP` (20_memory.md R38). -/
theorem portOf_eq_ibuf {c : Config} {w k : Nat} {off : BitVec 20} (h : portOf c.bufcap w off = .ibuf k) :
    k + 4 ≤ c.bufcap := by
  obtain ⟨n, hn, _⟩ := bufcap_eq c
  rw [(portOf_not_refused (by rw [h]; nofun)).2] at h
  have := portAt_eq_ibuf h
  omega

/-! ### Steps of the host -/

theorem step_read {s : State} {w : Nat} {off : BitVec 20} {rest : List HostMove} (hs : s.host = .read w off :: rest) :
    step s = .next ({ s with host := rest }.hostRead w off) := by
  rw [step, hostStep, hs]
  rfl

/-- The step of a host write of anything but `CMD` (10_state.md R32 to R34). -/
theorem step_portWrite {s : State} {w : Nat} {off : BitVec 20} {v : Reg32} {rest : List HostMove} {p : Port}
    (hs : s.host = .write w off v :: rest) (hp : portOf s.cfg.bufcap w off = p) (hcmd : p ≠ .cmd) :
    step s = .next ({ s with host := rest }.portWrite p v) := by
  subst hp
  rw [step, hostStep, hs]
  simp only [hostMove, hostWrite]

/-- Writes to this port change nothing (10_state.md R33, R34). -/
def Port.IgnoresWrites : Port → Prop
  | .status | .outlen | .errcmd | .dout _ | .prev _ | .rks _ | .obuf _ | .refused => True
  | .cmd | .klen | .ivlen | .inlen | .key _ | .iv _ | .din _ | .ibuf _ => False

theorem portWrite_of_ignoresWrites {p : Port} (h : p.IgnoresWrites) (s : State) (v : Reg32) : s.portWrite p v = s := by
  cases p with
  | cmd | klen | ivlen | inlen | key | iv | din | ibuf => exact h.elim
  | _ => rfl

theorem step_ignoredWrite {s : State} {w : Nat} {off : BitVec 20} {v : Reg32} {rest : List HostMove}
    (hs : s.host = .write w off v :: rest) (h : (portOf s.cfg.bufcap w off).IgnoresWrites) :
    step s = .next { s with host := rest } := by
  have hcmd : portOf s.cfg.bufcap w off ≠ .cmd := fun hc => by rw [hc] at h; exact h
  rw [step_portWrite hs rfl hcmd, portWrite_of_ignoresWrites h]

end Sys2Proof.Machine
end

section
/-! PROOFS. The register map and the host's accesses (O11 to O16). -/

namespace Sys2Proof.Machine

/-- Settles O11, by the map at each offset and the alignment check before it. -/
theorem registerMapIsAsListed : Obligations.RegisterMapIsAsListed := fun g =>
  ⟨rfl, rfl, rfl, rfl, rfl, rfl, rfl, portOf_key g.bufcap,
    fun j => ⟨portOf_iv g.bufcap j, portOf_din g.bufcap j, portOf_dout g.bufcap j, portOf_prev g.bufcap j⟩,
    portOf_rks g.bufcap, fun _ => portOf_ibuf, fun _ => portOf_obuf, fun _ _ => portOf_misaligned,
    fun _ => portOf_reserved⟩

/-- Where the content is specified, a read depends on none of the model's own fields (10_state.md R25, R29, R34). -/
theorem portRead_specified {s : State} {p : Port} (h : s.Specified p) (host : List HostMove) (rdata : Reg32)
    (free : Nat) : ({ s with host := host, rdata := rdata, free := free } : State).portRead p = s.portRead p := by
  cases p with
  | rks j =>
    have hword : ∀ u : State, u.Specified (.rks j) → u.portRead (.rks j) = packWord u.rks[j] :=
      fun _ hu => congrArg packWord (if_pos hu)
    exact (hword { s with host := host, rdata := rdata, free := free } h).trans (hword s h).symm
  | obuf k =>
    have hlt : k + 3 < s.outlen.toNat := h
    simp (disch := omega) only [State.portRead, State.obufByte, if_pos]
  | refused => exact h.elim
  | _ => rfl

/-- Settles O12: what a read returns depends on the counter of free values only where it is unspecified. -/
theorem hostReadHasNoSideEffect : Obligations.HostReadHasNoSideEffect := fun s _ _ rest hs =>
  ⟨_, step_read hs, rfl, rfl, fun hspec =>
    (portRead_specified hspec _ _ _).trans (portRead_specified hspec rest s.rdata s.free).symm⟩

/-- Settles O13: such an offset selects the word or `KLEN`, and the write of either goes through `dropSchedule`. -/
theorem keyWriteDropsSchedule : Obligations.KeyWriteDropsSchedule := fun _ _ _ =>
  ⟨fun j hs => ⟨_, step_portWrite hs (portOf_key _ j) nofun, rfl, rfl⟩,
    fun hs => ⟨_, step_portWrite hs rfl nofun, rfl, rfl⟩⟩

/-- Settles O14: each is the write of the one register its offset selects; for IBUF by the laws of the buffer. -/
theorem plainWriteOnlyStores : Obligations.PlainWriteOnlyStores := by
  refine fun s v rest => ⟨fun hs => step_portWrite hs rfl nofun, fun hs => step_portWrite hs rfl nofun,
    fun j hs => step_portWrite hs (portOf_iv _ j) nofun, fun j hs => step_portWrite hs (portOf_din _ j) nofun,
    fun k hk hwf hs => ⟨_, step_portWrite hs (portOf_ibuf hk) nofun, rfl, ?_, fun a ha => ?_⟩⟩
  · exact Mem.readBytes_writeBytes hwf (4 * k) (unpackWord v).bytes
  · exact (Mem.read_writeBytes hwf (4 * k) a (unpackWord v).bytes).trans (if_neg (by rw [Word.bytes_length]; omega))

/-- An access to a read-only register or to nothing at all (10_state.md R33, R34). -/
theorem portOf_readOnly {c : Config} {off : BitVec 20}
    (h : off = 0x004 ∨ off = 0x014 ∨ off = 0x018 ∨ (0x060 ≤ off.toNat ∧ off.toNat ≤ 0x07C) ∨
      (0x100 ≤ off.toNat ∧ off.toNat ≤ 0x1EC) ∨ (0x20000 ≤ off.toNat ∧ off.toNat < 0x20000 + c.bufcap + 16)) :
    (portOf c.bufcap 4 off).IgnoresWrites := by
  obtain ⟨n, hn, _⟩ := bufcap_eq c
  by_cases halign : off.toNat % 4 = 0
  · rw [portOf, if_pos ⟨rfl, halign⟩]
    rcases h with rfl | rfl | rfl | ⟨hlo, hhi⟩ | h | h
    · trivial
    · trivial
    · trivial
    · by_cases hdout : off.toNat ≤ 0x06C
      · rw [portAt_dout ⟨hlo, hdout⟩]; trivial
      · rw [portAt_prev (by omega)]; trivial
    · rw [portAt_rks h]; trivial
    · rw [portAt_obuf (by omega) (by omega)]; trivial
  · rw [portOf_misaligned (.inr halign)]; trivial

/-- Settles O15: such an offset selects a port that ignores writes, `OBUF` included. -/
theorem readOnlyWriteIsIgnored : Obligations.ReadOnlyWriteIsIgnored := fun _ _ _ _ hs h =>
  step_ignoredWrite hs (portOf_readOnly h)

/-- Settles O16: every such access selects the refused port. -/
theorem refusedAccessChangesNothing : Obligations.RefusedAccessChangesNothing := by
  intro s w off rest h
  have hp : portOf s.cfg.bufcap w off = .refused := by
    by_cases hw : w = 4
    · subst hw
      rcases h with h | h | h
      · exact portOf_misaligned (.inl h)
      · exact portOf_misaligned (.inr h)
      · exact portOf_reserved h
    · exact portOf_misaligned (.inl hw)
  exact ⟨fun v hs => step_ignoredWrite hs (by rw [hp]; trivial), fun hs => ⟨_, step_read hs, rfl⟩⟩

end Sys2Proof.Machine
end

section
/-! PROOFS. No command but `RST` writes its inputs (O52). -/

namespace Sys2Proof.Machine

/-- The parameters and the host's side of two states are the same. -/
def SameHostSide (s t : State) : Prop := t.cfg = s.cfg ∧ t.host = s.host ∧ t.rdata = s.rdata

/-- What the host loads for a command is the same in two states. -/
def SameInputs (s t : State) : Prop :=
  t.key = s.key ∧ t.klen = s.klen ∧ t.iv = s.iv ∧ t.din = s.din ∧ t.inlen = s.inlen ∧ t.ibuf = s.ibuf

theorem keepsInputs_refl (s : State) : SameHostSide s s ∧ SameInputs s s :=
  ⟨⟨rfl, rfl, rfl⟩, rfl, rfl, rfl, rfl, rfl, rfl⟩

theorem ensureSchedule_keepsInputs {s u : State} (h : s.ensureSchedule = .ok u) :
    SameHostSide s u ∧ SameInputs s u :=
  ensureSchedule_keeps (P := fun u => SameHostSide s u ∧ SameInputs s u) (fun _ _ h => h) (keepsInputs_refl s) h

theorem streamStart_keepsInputs {s u : State} {m : Mode} (h : s.streamStart m = .ok u) :
    SameHostSide s u ∧ SameInputs s u :=
  streamStart_keeps (P := fun u => SameHostSide s u ∧ SameInputs s u) (fun _ _ h => h) (fun _ h => h) (fun _ h => h)
    (keepsInputs_refl s) h

/-- A command keeps the parameters and the host's side, and unless it is `RST` its inputs. -/
theorem effect_keepsInputs {s t : State} {i : Instr} (h : Effect s i t) :
    SameHostSide s t ∧ (i ≠ .rst → SameInputs s t) := by
  have same := keepsInputs_refl s
  cases h with
  | setupError | keyExpanded | padDone | padDataError | acknowledged => exact same.imp_right fun h _ => h
  | blockDone _ _ _ hu | chainDone _ _ _ _ hu => exact (ensureSchedule_keepsInputs hu).imp_right fun h _ => h
  | streamStarted _ _ _ hu | streamDone _ _ _ hu => exact (streamStart_keepsInputs hu).imp_right fun h _ => h
  | streamDataError m _ _ hu => cases m <;> exact (streamStart_keepsInputs hu).imp_right fun h _ => h
  | reset hi => exact ⟨same.1, fun hn => absurd hi hn⟩

/-- Settles O52, by what each kind of end leaves: the result and error operations write none of the inputs. -/
theorem commandsKeepTheirInputs : Obligations.CommandsKeepTheirInputs := by
  intro i s t h
  obtain ⟨⟨hcfg, hhost, hrdata⟩, hin⟩ := effect_keepsInputs (effect_of_exec h)
  refine ⟨hcfg, hhost, hrdata, fun hi => ?_⟩
  obtain ⟨hkey, hklen, hiv, hdin, hinlen, hibuf⟩ := hin hi
  exact ⟨hkey, hklen, hiv, hdin, hinlen, fun a => by rw [hibuf]⟩

end Sys2Proof.Machine
end

section
/-! PROOFS. The invariants of the machine: the schedule, the buffers, `OUTLEN` and `ERRCMD` (O55 to O58, O60). -/

namespace Sys2Proof.Machine

/-! ### The schedule -/

/-- The expansion of a key of legal length is a coherent schedule, be there one before or not
(41_key_schedule.md R85). -/
theorem setSchedule_coherent {s : State} (hk : keyLengthLegal s.klen.toNat = true) :
    (s.setSchedule s.expansion).ScheduleCoherent := by
  -- what `RKVALID` was before does not enter the result
  obtain ⟨⟨_, _, hens⟩, hsch⟩ := setSchedule_ensured (s := { s with rkvalid := false }) rfl hk
  obtain ⟨hnk, hnr, _⟩ := hens rfl
  refine ⟨fun _ => ⟨hk, ?klen, ?nr, ?rks⟩, nofun⟩
  case klen =>
    have hlen : s.klen.toNat = 4 * (s.klen.toNat / 4) := by have := keyLengthLegal_iff.1 hk; omega
    exact hlen.trans (congrArg (4 * ·) hnk.symm)
  case nr => exact hnr.trans (congrArg (· + 6) hnk.symm)
  case rks => exact (expand_keyBytes hk).1.trans (congrArg Except.ok hsch.symm)

theorem ensureSchedule_coherent {s u : State} (hs : s.ScheduleCoherent) (h : s.ensureSchedule = .ok u) :
    u.ScheduleCoherent := ensureSchedule_keeps (fun _ hk _ => setSchedule_coherent hk) hs h

theorem streamStart_coherent {s u : State} {m : Mode} (hs : s.ScheduleCoherent) (h : s.streamStart m = .ok u) :
    u.ScheduleCoherent :=
  streamStart_keeps (fun _ hk _ => setSchedule_coherent hk) (fun _ h => h) (fun _ h => h) hs h

/-- A state without a schedule, `NK` and `NR` being 0, is coherent (10_state.md R11). -/
theorem scheduleCoherent_of_none {s : State} (hv : s.rkvalid = false) (hnk : s.nk = 0) (hnr : s.nr = 0) :
    s.ScheduleCoherent :=
  ⟨fun h => (Bool.false_ne_true (hv.symm.trans h)).elim, fun _ => ⟨hnk, hnr⟩⟩

theorem portWrite_coherent {s : State} (hs : s.ScheduleCoherent) (p : Port) (v : Reg32) :
    (s.portWrite p v).ScheduleCoherent := by
  cases p with
  | klen | key => exact scheduleCoherent_of_none rfl rfl rfl
  | _ => exact hs

/-- `KEXP` with a schedule in place expands the same key again, so its result is coherent too. -/
theorem effect_coherent {s t : State} {i : Instr} (hs : s.ScheduleCoherent) (h : Effect s i t) :
    t.ScheduleCoherent := by
  cases h with
  | setupError | padDone | padDataError | acknowledged => exact hs
  | keyExpanded _ hk => exact setSchedule_coherent hk
  | blockDone _ _ _ hu | chainDone _ _ _ _ hu => exact (ensureSchedule_coherent hs hu :)
  | streamStarted _ _ _ hu | streamDone _ _ _ hu => exact (streamStart_coherent hs hu :)
  | streamDataError m _ _ hu => cases m <;> exact (streamStart_coherent hs hu :)
  | reset => exact scheduleCoherent_of_none rfl rfl rfl

/-- Settles O55: a schedule enters `RKS` only as the expansion of the key, and `KEY` and `KLEN` change only
together with the loss of the schedule. -/
theorem stepKeepsScheduleCoherent : Obligations.StepKeepsScheduleCoherent := fun _ _ =>
  step_keeps (fun _ _ h => h) (fun _ _ _ h => h) (fun _ _ _ _ h => portWrite_coherent h _ _)
    (fun _ _ _ => effect_coherent) (fun _ _ h => h)

/-! ### The buffers -/

/-- A buffer is in canonical form and lists no byte at or above `n` (10_state.md R27). -/
def Mem.CanonicalBelow (n : Nat) (m : Mem) : Prop := m.wf = true ∧ ∀ c ∈ m.cells, c.1 < n

theorem buffersCanonical_iff (s : State) :
    s.BuffersCanonical ↔ s.ibuf.CanonicalBelow s.cfg.bufcap ∧ s.obuf.CanonicalBelow (s.cfg.bufcap + 16) :=
  ⟨fun ⟨hi, ho, hci, hco⟩ => ⟨⟨hi, hci⟩, ho, hco⟩, fun ⟨⟨hi, hci⟩, ho, hco⟩ => ⟨hi, ho, hci, hco⟩⟩

theorem Mem.unspecified_canonicalBelow (n draw : Nat) (site : FreeSite) :
    (Mem.unspecified draw site).CanonicalBelow n := ⟨rfl, nofun⟩

theorem Mem.writeBytes_canonicalBelow {n a : Nat} {m : Mem} {l : List Byte} (hm : m.CanonicalBelow n)
    (hl : a + l.length ≤ n) : (m.writeBytes a l).CanonicalBelow n := by
  refine ⟨Mem.writeBytes_wf hm.1 a l, fun c hc => ?_⟩
  rcases Mem.mem_writeBytes hc with ⟨_, hlt⟩ | hold
  · omega
  · exact hm.2 c hold

theorem portWrite_buffersCanonical {s : State} (hs : s.BuffersCanonical) (w : Nat) (off : BitVec 20) (v : Reg32) :
    (s.portWrite (portOf s.cfg.bufcap w off) v).BuffersCanonical := by
  cases hp : portOf s.cfg.bufcap w off with
  | ibuf k =>
    rw [buffersCanonical_iff] at hs ⊢
    exact ⟨Mem.writeBytes_canonicalBelow hs.1 (portOf_eq_ibuf hp), hs.2⟩
  | _ => exact hs

theorem setOutput_buffersCanonical {s : State} {out : List Byte} (hi : s.ibuf.CanonicalBelow s.cfg.bufcap)
    (hlen : out.length ≤ s.cfg.bufcap + 16) : (s.setOutput out).BuffersCanonical :=
  (buffersCanonical_iff _).2 ⟨hi, Mem.writeBytes_canonicalBelow (Mem.unspecified_canonicalBelow ..) (by simpa using hlen)⟩

theorem forgetOutput_buffersCanonical {s : State} (hs : s.BuffersCanonical) : s.forgetOutput.BuffersCanonical :=
  (buffersCanonical_iff _).2 ⟨((buffersCanonical_iff s).1 hs).1, Mem.unspecified_canonicalBelow ..⟩

theorem ensureSchedule_buffersCanonical {s u : State} (hs : s.BuffersCanonical) (h : s.ensureSchedule = .ok u) :
    u.BuffersCanonical := ensureSchedule_keeps (fun _ _ h => h) hs h

theorem streamStart_buffersCanonical {s u : State} {m : Mode} (hs : s.BuffersCanonical)
    (h : s.streamStart m = .ok u) : u.BuffersCanonical :=
  streamStart_keeps (fun _ _ h => h) (fun _ h => h) (fun _ h => h) hs h

theorem effect_buffersCanonical {s t : State} {i : Instr} (hs : s.BuffersCanonical) (h : Effect s i t) :
    t.BuffersCanonical := by
  cases h with
  | setupError | keyExpanded | acknowledged => exact hs
  | blockDone _ _ _ hu | chainDone _ _ _ _ hu => exact (ensureSchedule_buffersCanonical hs hu :)
  | streamStarted _ _ _ hu => exact streamStart_buffersCanonical hs hu
  | padDone _ out hlen => exact setOutput_buffersCanonical ((buffersCanonical_iff s).1 hs).1 hlen
  | padDataError => exact (forgetOutput_buffersCanonical hs :)
  | streamDone m _ u hu out _ hlen =>
    obtain ⟨⟨hcfg, _⟩, _⟩ := streamStart_keepsInputs hu
    have started := (buffersCanonical_iff u).1 (streamStart_buffersCanonical hs hu)
    exact (setOutput_buffersCanonical started.1 (by rwa [hcfg]) :)
  | streamDataError m _ _ hu =>
    have forgotten := forgetOutput_buffersCanonical (streamStart_buffersCanonical hs hu)
    cases m <;> exact forgotten
  | reset =>
    exact (buffersCanonical_iff _).2 ⟨Mem.unspecified_canonicalBelow .., Mem.unspecified_canonicalBelow ..⟩

/-- Settles O56: the window writes IBUF below `BUFCAP` only, and an output is at most `BUFCAP + 16` bytes long. -/
theorem stepKeepsBuffersCanonical : Obligations.StepKeepsBuffersCanonical := fun _ _ =>
  step_keeps (fun _ _ h => h) (fun _ _ _ h => h) (fun _ _ _ _ h => portWrite_buffersCanonical h _ _ _)
    (fun _ _ _ => effect_buffersCanonical) (fun _ _ h => h)

/-! ### `OUTLEN` -/

theorem portWrite_outputBounded {s : State} (hs : s.OutputBounded) (p : Port) (v : Reg32) :
    (s.portWrite p v).OutputBounded := by
  rw [portWrite_frame]
  exact hs

/-- An error record leaves `OUTLEN` or sets it to 0 (60_exceptions.md R195). -/
theorem raise_outputBounded {s : State} (hs : s.OutputBounded) (c : Reg32) (buffer : Bool) (e : ErrKind) :
    (s.raise c buffer e).OutputBounded := by
  cases buffer with
  | false => exact hs
  | true => exact Nat.zero_le _

theorem setOutput_outputBounded {s : State} {out : List Byte} (hlen : out.length ≤ s.cfg.bufcap + 16) :
    (s.setOutput out).OutputBounded := by
  have := Nat.mod_le out.length (2 ^ 32)
  simp only [State.OutputBounded, State.setOutput_outlen, State.setOutput_cfg, BitVec.toNat_ofNat]
  omega

theorem ensureSchedule_outputBounded {s u : State} (hs : s.OutputBounded) (h : s.ensureSchedule = .ok u) :
    u.OutputBounded := ensureSchedule_keeps (fun _ _ h => h) hs h

theorem streamStart_outputBounded {s u : State} {m : Mode} (hs : s.OutputBounded) (h : s.streamStart m = .ok u) :
    u.OutputBounded := streamStart_keeps (fun _ _ h => h) (fun _ h => h) (fun _ h => h) hs h

theorem effect_outputBounded {s t : State} {i : Instr} (hs : s.OutputBounded) (h : Effect s i t) :
    t.OutputBounded := by
  cases h with
  | setupError e | padDataError _ e => exact (raise_outputBounded hs (encode i) (isBuffer i) e :)
  | keyExpanded | acknowledged => exact hs
  | blockDone _ _ _ hu | chainDone _ _ _ _ hu => exact (ensureSchedule_outputBounded hs hu :)
  | streamStarted _ _ _ hu => exact streamStart_outputBounded hs hu
  | padDone _ out hlen => exact setOutput_outputBounded hlen
  | streamDone m _ u hu out _ hlen =>
    obtain ⟨⟨hcfg, _⟩, _⟩ := streamStart_keepsInputs hu
    exact (setOutput_outputBounded (s := u) (out := out) (by rwa [hcfg]) :)
  | streamDataError m _ _ hu e =>
    have raised := raise_outputBounded (streamStart_outputBounded hs hu) (encode i) (isBuffer i) e
    cases m <;> exact raised
  | reset => exact Nat.zero_le _

/-- Settles O57: an output is at most `BUFCAP + 16` bytes long, and an error leaves `OUTLEN` or sets it to 0. -/
theorem stepKeepsOutputBounded : Obligations.StepKeepsOutputBounded := fun _ _ =>
  step_keeps (fun _ _ h => h) (fun _ _ _ h => h) (fun _ _ _ _ h => portWrite_outputBounded h _ _)
    (fun _ _ _ => effect_outputBounded) (fun _ c h => raise_outputBounded h c false .illegalCommand)

/-! ### `ERRCMD` -/

/-- Every error that is raised has a kind, so `ERR` is not 0 after it (60_exceptions.md R192). -/
theorem errorRecorded_of_err {s : State} (h : s.err ≠ .noError) : s.ErrorRecorded := fun h' => absurd h' h

theorem ErrKind.ne_noError_of_isSetup {e : ErrKind} (h : e.isSetup = true) : e ≠ .noError := by
  rintro rfl; cases h

theorem ErrKind.ne_noError_of_isData {e : ErrKind} (h : e.isData = true) : e ≠ .noError := by
  rintro rfl; cases h

theorem portWrite_errorRecorded {s : State} (hs : s.ErrorRecorded) (p : Port) (v : Reg32) :
    (s.portWrite p v).ErrorRecorded := by
  rw [portWrite_frame]
  exact hs

theorem ensureSchedule_errorRecorded {s u : State} (hs : s.ErrorRecorded) (h : s.ensureSchedule = .ok u) :
    u.ErrorRecorded := ensureSchedule_keeps (fun _ _ h => h) hs h

theorem streamStart_errorRecorded {s u : State} {m : Mode} (hs : s.ErrorRecorded) (h : s.streamStart m = .ok u) :
    u.ErrorRecorded := streamStart_keeps (fun _ _ h => h) (fun _ h => h) (fun _ h => h) hs h

theorem effect_errorRecorded {s t : State} {i : Instr} (hs : s.ErrorRecorded) (h : Effect s i t) :
    t.ErrorRecorded := by
  cases h with
  | setupError e he => exact errorRecorded_of_err (ErrKind.ne_noError_of_isSetup he)
  | padDataError _ e he => exact errorRecorded_of_err (ErrKind.ne_noError_of_isData he)
  | streamDataError m _ _ _ e he =>
    refine errorRecorded_of_err ?_
    cases m <;> exact ErrKind.ne_noError_of_isData he
  | keyExpanded | padDone => exact hs
  | blockDone _ _ _ hu | chainDone _ _ _ _ hu => exact (ensureSchedule_errorRecorded hs hu :)
  | streamStarted _ _ _ hu | streamDone _ _ _ hu => exact (streamStart_errorRecorded hs hu :)
  | acknowledged | reset => exact fun _ => rfl

/-- Settles O58: `ERRCMD` is written together with an error kind, and cleared together with `ERR`. -/
theorem stepKeepsErrorRecorded : Obligations.StepKeepsErrorRecorded := fun _ _ =>
  step_keeps (fun _ _ h => h) (fun _ _ _ h => h) (fun _ _ _ _ h => portWrite_errorRecorded h _ _)
    (fun _ _ _ => effect_errorRecorded) (fun _ _ _ => errorRecorded_of_err nofun)

/-! ### Runs -/

theorem step_keepsInv {s t : State} (hs : s.Inv) (h : step s = .next t) : t.Inv := by
  obtain ⟨hsched, hbuf, hout, herr⟩ := hs
  exact ⟨stepKeepsScheduleCoherent s t hsched h, stepKeepsBuffersCanonical s t hbuf h,
    stepKeepsOutputBounded s t hout h, stepKeepsErrorRecorded s t herr h⟩

/-- No step changes the parameters (log entry 5). -/
theorem step_cfg {s t : State} (h : step s = .next t) : t.cfg = s.cfg :=
  step_keeps (P := fun u => u.cfg = s.cfg) (fun _ _ h => h) (fun _ _ _ h => h)
    (fun _ _ _ _ h => by rw [portWrite_frame]; exact h)
    (fun _ _ _ h he => (effect_keepsInputs he).1.1.trans h) (fun _ _ h => h) rfl h

/-- What every step of a machine keeps, every run of it keeps. -/
theorem run_keeps {M : Host.Core} {P : M.State → Prop} (hstep : ∀ s t, P s → M.step s = .next t → P t) {k : Nat}
    {s t : M.State} (hs : P s) (h : M.run k s = .next t) : P t := by
  induction k generalizing s with
  | zero => cases h; exact hs
  | succ k ih =>
    rw [Host.Core.run] at h
    split at h
    · rename_i u hu
      exact ih (hstep s u hs hu) h
    · cases h
    · cases h

/-- Settles O60, by induction on the number of steps. -/
theorem reachableStatesMeetInvariants : Obligations.ReachableStatesMeetInvariants := fun _ s _ hs =>
  run_keeps (M := core) (P := fun u : State => u.Inv ∧ u.cfg = s.cfg)
    (fun _ _ ⟨hinv, hcfg⟩ h => ⟨step_keepsInv hinv h, (step_cfg h).trans hcfg⟩) ⟨hs, rfl⟩

end Sys2Proof.Machine
end

section
/-! PROOFS. A word the host writes reads back (O18). -/

namespace Sys2Proof.Machine

theorem blockWord_setBlockWord (b : Block) (w : Word) (j k : Fin 4) :
    blockWord (setBlockWord b j.val w) k.val = if k = j then w else blockWord b k.val := by
  fin_cases j <;> fin_cases k <;> rfl

/-- The low byte of a value, zero-extended (10_state.md R20, R21). -/
theorem setWidth_lowByte (v : Reg32) : (v.extractLsb' 0 8).setWidth 32 = v &&& 0x000000FF := by
  apply BitVec.eq_of_toNat_eq
  have hmask := Nat.and_two_pow_sub_one_eq_mod v.toNat 8
  simp at hmask ⊢
  omega

theorem portRead_key_portWrite (s : State) (v : Reg32) (i k : Fin 8) :
    (s.portWrite (.key i) v).portRead (.key k) = if k = i then v else s.portRead (.key k) := by
  simp only [State.portRead, State.portWrite, Fin.getElem_fin, Vector.getElem_set, Fin.val_inj, eq_comm (a := i),
    apply_ite packWord, packWord_unpackWord]

theorem portRead_iv_portWrite (s : State) (v : Reg32) (j k : Fin 4) :
    (s.portWrite (.iv j) v).portRead (.iv k) = if k = j then v else s.portRead (.iv k) := by
  simp only [State.portRead, State.portWrite, blockWord_setBlockWord, apply_ite packWord, packWord_unpackWord]

theorem portRead_din_portWrite (s : State) (v : Reg32) (j k : Fin 4) :
    (s.portWrite (.din j) v).portRead (.din k) = if k = j then v else s.portRead (.din k) := by
  simp only [State.portRead, State.portWrite, blockWord_setBlockWord, apply_ite packWord, packWord_unpackWord]

theorem portRead_ibuf_portWrite {s : State} (h : s.ibuf.wf = true) (v : Reg32) (k : Nat) :
    (s.portWrite (.ibuf k) v).portRead (.ibuf k) = v := by
  have hbytes := Mem.readBytes_writeBytes h k (unpackWord v).bytes
  simp only [Word.bytes, List.length_cons, List.length_nil, Mem.readBytes, List.cons.injEq, and_true] at hbytes
  obtain ⟨h0, h1, h2, h3⟩ := hbytes
  simp only [State.portRead, State.portWrite, Word.bytes, h0, h1, h2, h3]
  exact packWord_unpackWord v

/-- Settles O18, by what a read of each array gives after a write to one of its words. -/
theorem writtenWordReadsBack : Obligations.WrittenWordReadsBack := fun s v k i j h =>
  ⟨(portRead_key_portWrite s v i i).trans (if_pos rfl), (portRead_iv_portWrite s v j j).trans (if_pos rfl),
    (portRead_din_portWrite s v j j).trans (if_pos rfl), portRead_ibuf_portWrite h v k,
    fun i' hi => (portRead_key_portWrite s v i i').trans (if_neg hi),
    fun j' hj => ⟨(portRead_iv_portWrite s v j j').trans (if_neg hj), (portRead_din_portWrite s v j j').trans (if_neg hj)⟩,
    rfl, setWidth_lowByte v, setWidth_lowByte v⟩

end Sys2Proof.Machine
end

section
/-! PROOFS. The events that set and clear `CHAINV` and `RKVALID` (O10). -/

namespace Sys2Proof.Machine

/-! ### Command words -/

/-- A word that decodes to a command is the word of that command (30_encoding.md R53). -/
theorem eq_encode_of_decode {c : Reg32} {i : Instr} (h : decode c = .ok i) : c = encode i := by
  have listed : ∀ p ∈ legalWords, p.1 = encode p.2 := by decide
  unfold decode at h
  split at h
  · rename_i hj
    cases h
    obtain ⟨l, r, hl, _⟩ := List.lookup_eq_some_iff.1 hj
    exact listed (c, i) (by simp [hl])
  · cases h

/-- The low byte of a command's word is its `OPC` (30_encoding.md R50). -/
theorem encode_opc (i : Instr) : (encode i).extractLsb' 0 8 = i.fields.opc := by
  cases i <;> decide

/-! ### The flags -/

theorem stream_opc {i : Instr} {m : Mode} (h : ∃ p, i = sencInstr m p ∨ i = sdecInstr m p) :
    i.fields.opc = 0x09 ∨ i.fields.opc = 0x0A := by
  obtain ⟨p, rfl | rfl⟩ := h
  · left; cases m <;> cases p <;> rfl
  · right; cases m <;> cases p <;> rfl

/-- `CHAINV` after a command: `MINIT.CBC` sets it; `MINIT.ECB`, a stream and `RST` clear it (10_state.md R16). -/
theorem effect_chainv {s t : State} {i : Instr} (h : Effect s i t) :
    t.chainv = s.chainv ∨ (i = .minitCbc ∧ t.chainv = true) ∨
    ((i = .minitEcb ∨ i = .rst ∨ i.fields.opc = 0x09 ∨ i.fields.opc = 0x0A) ∧ t.chainv = false) := by
  have ensured : ∀ u, s.ensureSchedule = .ok u → u.chainv = s.chainv := fun _ =>
    ensureSchedule_keeps (P := fun u => u.chainv = s.chainv) (fun _ _ h => h) rfl
  cases h with
  | setupError | keyExpanded | padDone | padDataError | acknowledged => exact .inl rfl
  | blockDone _ u _ hu | chainDone _ u _ _ hu => exact .inl (ensured u hu)
  | streamStarted m hi _ hu =>
    obtain ⟨_, _, _, _, hchain, _⟩ := streamStart_ok hu
    cases m with
    | ecb => exact .inr (.inr ⟨.inl hi, hchain⟩)
    | cbc => exact .inr (.inl ⟨hi, hchain⟩)
  | streamDone m hi => exact .inr (.inr ⟨.inr (.inr (stream_opc hi)), rfl⟩)
  | streamDataError m hi => exact .inr (.inr ⟨.inr (.inr (stream_opc hi)), by cases m <;> rfl⟩)
  | reset hi => exact .inr (.inr ⟨.inr (.inl hi), rfl⟩)

/-- A command that ensures the schedule keeps `RKVALID` or expands a key of legal length (41_key_schedule.md R86). -/
theorem rkvalid_of_ensured {s u : State} (hk : s.KeyReady) (hu : ScheduleEnsured s u) :
    u.rkvalid = s.rkvalid ∨ (keyLengthLegal s.klen.toNat = true ∧ u.rkvalid = true) :=
  hk.imp (fun hv => hu.1.trans hv.symm) fun hl => ⟨hl, hu.1⟩

/-- `RKVALID` after a command: a command that ensures the schedule can set it, `RST` clears it
(10_state.md R16, 41_key_schedule.md R85, R86). -/
theorem effect_rkvalid {s t : State} {i : Instr} (h : Effect s i t) :
    t.rkvalid = s.rkvalid ∨
    ((keyLengthLegal s.klen.toNat = true ∧ t.rkvalid = true) ∧
      i.fields.opc.toNat ∈ [0x01, 0x02, 0x03, 0x04, 0x05, 0x06, 0x09, 0x0A]) ∨
    (i = .rst ∧ t.rkvalid = false) := by
  have ensured : ∀ u, s.ensureSchedule = .ok u →
      u.rkvalid = s.rkvalid ∨ (keyLengthLegal s.klen.toNat = true ∧ u.rkvalid = true) := fun u hu =>
    have ⟨hk, hens, _⟩ := ensureSchedule_ok hu
    rkvalid_of_ensured hk hens
  have started : ∀ m u, s.streamStart m = .ok u →
      u.rkvalid = s.rkvalid ∨ (keyLengthLegal s.klen.toNat = true ∧ u.rkvalid = true) := fun m u hu =>
    have ⟨⟨hk, _⟩, hens, _⟩ := streamStart_ok hu
    rkvalid_of_ensured hk hens
  cases h with
  | setupError | padDone | padDataError | acknowledged => exact .inl rfl
  | keyExpanded hi hk => exact .inr (.inl ⟨⟨hk, rfl⟩, by rw [hi]; decide⟩)
  | blockDone hi u _ hu =>
    obtain ⟨_, hopc⟩ := hi
    have wider : [0x02, 0x03, 0x05, 0x06] ⊆ [0x01, 0x02, 0x03, 0x04, 0x05, 0x06, 0x09, 0x0A] := by decide
    exact (ensured u hu).imp_right fun he => .inl ⟨he, wider hopc⟩
  | chainDone hi u _ _ hu =>
    exact (ensured u hu).imp_right fun he => .inl ⟨he, by rcases hi with rfl | rfl <;> decide⟩
  | streamStarted m hi u hu =>
    exact (started m _ hu).imp_right fun he => .inl ⟨he, by subst hi; cases m <;> decide⟩
  | streamDone m hi u hu =>
    exact (started m u hu).imp_right fun he => .inl ⟨he, by rcases stream_opc hi with h | h <;> rw [h] <;> decide⟩
  | streamDataError m hi u hu e =>
    have herr : (u.streamDataError i m e).rkvalid = u.rkvalid := by cases m <;> rfl
    rw [herr]
    exact (started m u hu).imp_right fun he => .inl ⟨he, by rcases stream_opc hi with h | h <;> rw [h] <;> decide⟩
  | reset hi => exact .inr (.inr ⟨hi, rfl⟩)

/-- A write that drops the schedule goes to `KLEN` or to a word of `KEY` (10_state.md R11). -/
theorem portWrite_rkvalid (s : State) (w : Nat) (off : BitVec 20) (v : Reg32) :
    (s.portWrite (portOf s.cfg.bufcap w off) v).rkvalid = s.rkvalid ∨
    (w = 4 ∧ (off = 0x008 ∨ (0x020 ≤ off.toNat ∧ off.toNat ≤ 0x03C)) ∧
      (s.portWrite (portOf s.cfg.bufcap w off) v).rkvalid = false) := by
  cases hp : portOf s.cfg.bufcap w off with
  | klen =>
    obtain ⟨hw, hat⟩ := portOf_not_refused (by rw [hp]; nofun)
    exact .inr ⟨hw, .inl (BitVec.eq_of_toNat_eq (portAt_eq_klen (hat.symm.trans hp))), rfl⟩
  | key j =>
    obtain ⟨hw, hat⟩ := portOf_not_refused (by rw [hp]; nofun)
    exact .inr ⟨hw, .inr (portAt_eq_key (hat.symm.trans hp)), rfl⟩
  | _ => exact .inl rfl

/-! ### The events -/

/-- What a step does to `CHAINV`, and by which move of the host (10_state.md R16). -/
theorem step_chainv {s t : State} (h : step s = .next t) :
    t.chainv = s.chainv ∨
    (t.chainv = true ∧ ∃ rest, s.host = .write 4 0x000 0x00000104 :: rest) ∨
    (t.chainv = false ∧ ((∃ rest, s.host = .reset :: rest) ∨
      ∃ c rest, s.host = .write 4 0x000 c :: rest ∧
        (c = 0x00000004 ∨ c = 0x0000000F ∨ (c.extractLsb' 0 8 = 0x09 ∨ c.extractLsb' 0 8 = 0x0A)))) := by
  cases stepEffect_of_step h with
  | idle | hostRead | illegalWord | heldBack => exact .inl rfl
  | portWritten => rw [portWrite_frame]; exact .inl rfl
  | resetEvent rest hs => exact .inr (.inr ⟨rfl, .inl ⟨rest, hs⟩⟩)
  | commandRun c rest i _ hs hd _ he =>
    obtain rfl := eq_encode_of_decode hd
    rcases effect_chainv he with hkept | ⟨rfl, ht⟩ | ⟨hi, ht⟩
    · exact .inl hkept
    · exact .inr (.inl ⟨ht, rest, hs⟩)
    · refine .inr (.inr ⟨ht, .inr ⟨encode i, rest, hs, ?_⟩⟩)
      rw [encode_opc]
      exact hi.imp (congrArg encode) (Or.imp_left (congrArg encode))

/-- What a step does to `RKVALID`, and by which move of the host (10_state.md R16). -/
theorem step_rkvalid {s t : State} (h : step s = .next t) :
    t.rkvalid = s.rkvalid ∨
    (t.rkvalid = true ∧ s.err = .noError ∧ keyLengthLegal s.klen.toNat = true ∧
      ∃ c i rest, s.host = .write 4 0x000 c :: rest ∧ decode c = .ok i ∧
        (c.extractLsb' 0 8).toNat ∈ [0x01, 0x02, 0x03, 0x04, 0x05, 0x06, 0x09, 0x0A]) ∨
    (t.rkvalid = false ∧ ((∃ rest, s.host = .reset :: rest) ∨
      ∃ off v rest, s.host = .write 4 off v :: rest ∧
        ((off = 0x000 ∧ v = 0x0000000F) ∨ off = 0x008 ∨ (0x020 ≤ off.toNat ∧ off.toNat ≤ 0x03C)))) := by
  cases stepEffect_of_step h with
  | idle | hostRead | illegalWord | heldBack => exact .inl rfl
  | portWritten w off v rest hs =>
    rcases portWrite_rkvalid { s with host := rest } w off v with hkept | ⟨rfl, hoff, ht⟩
    · exact .inl hkept
    · exact .inr (.inr ⟨ht, .inr ⟨off, v, rest, hs, .inr hoff⟩⟩)
  | resetEvent rest hs => exact .inr (.inr ⟨rfl, .inl ⟨rest, hs⟩⟩)
  | commandRun c rest i _ hs hd hgate he =>
    obtain rfl := eq_encode_of_decode hd
    rcases effect_rkvalid he with hkept | ⟨⟨hk, ht⟩, hopc⟩ | ⟨rfl, ht⟩
    · exact .inl hkept
    · have herr : s.err = .noError := by
        rcases hgate with herr | rfl | rfl
        · exact herr
        · exact absurd hopc (by decide)
        · exact absurd hopc (by decide)
      exact .inr (.inl ⟨ht, herr, hk, encode i, i, rest, hs, hd, by rwa [encode_opc]⟩)
    · exact .inr (.inr ⟨ht, .inr ⟨0x000, encode .rst, rest, hs, .inl ⟨rfl, rfl⟩⟩⟩)

/-- The events behind a rise and a fall of a flag, from what a step does to it. -/
theorem flag_events {a b : Bool} {Rise Fall : Prop} (h : b = a ∨ (b = true ∧ Rise) ∨ (b = false ∧ Fall)) :
    (a = false → b = true → Rise) ∧ (a = true → b = false → Fall) := by
  cases a <;> cases b <;> simp_all

/-- Settles O10, by the effect of each move of the host on the two flags. -/
theorem flagsChangeOnlyAsListed : Obligations.FlagsChangeOnlyAsListed := fun _ _ h =>
  have ⟨chainRise, chainFall⟩ := flag_events (step_chainv h)
  have ⟨keyRise, keyFall⟩ := flag_events (step_rkvalid h)
  ⟨chainRise, chainFall, keyFall, keyRise⟩

end Sys2Proof.Machine
end

section
/-! PROOFS. What the host reads: the byte order of the arrays and the control registers (O17). -/

namespace Sys2Proof.Machine

/-- Byte `b` of a word stands `b` bytes below the top of its value (20_memory.md R36). -/
theorem packWord_byte (w : Word) {b : Nat} (hb : b < 4) :
    (packWord w).extractLsb' (24 - 8 * b) 8 = w.bytes.getD b 0 := by
  obtain ⟨h0, h1, h2, h3⟩ := packWord_bytes w
  interval_cases b
  · exact h0
  · exact h1
  · exact h2
  · exact h3

/-- The value `r` holds the bytes `a 0` to `a 3` in the order of the window (20_memory.md R36). -/
def PacksBigEndian (r : Reg32) (a : Nat → Byte) : Prop :=
  r.extractLsb' 24 8 = a 0 ∧ r.extractLsb' 16 8 = a 1 ∧ r.extractLsb' 8 8 = a 2 ∧ r.extractLsb' 0 8 = a 3

theorem packWord_packsBigEndian {w : Word} {a : Nat → Byte} (h : ∀ b, b < 4 → w.bytes.getD b 0 = a b) :
    PacksBigEndian (packWord w) a :=
  have byte {b : Nat} (hb : b < 4) := (packWord_byte w hb).trans (h b hb)
  ⟨byte (b := 0) (by omega), byte (b := 1) (by omega), byte (b := 2) (by omega), byte (b := 3) (by omega)⟩

/-- Byte `4j + b` of the bytes of a list of words is byte `b` of word `j` (20_memory.md R35). -/
theorem getD_flatMap_bytes {l : List Word} {j b : Nat} (hj : j < l.length) (hb : b < 4) :
    (l.flatMap Word.bytes).getD (4 * j + b) 0 = l[j].bytes.getD b 0 := by
  induction l generalizing j with
  | nil => cases hj
  | cons w l ih =>
    rw [List.flatMap_cons]
    cases j with
    | zero => rw [List.getD_append _ _ _ _ (by rw [Word.bytes_length]; omega), Nat.mul_zero, Nat.zero_add]; rfl
    | succ j =>
      rw [List.getD_append_right _ _ _ _ (by rw [Word.bytes_length]; omega), Word.bytes_length,
        show 4 * (j + 1) + b - 4 = 4 * j + b by omega]
      exact ih (by simpa using hj)

theorem blockWord_packsBigEndian (x : Block) (j : Fin 4) :
    PacksBigEndian (packWord (blockWord x j.val)) fun b => x.bytes.getD (4 * j.val + b) 0 := by
  have hbytes : x.bytes = [x.w0, x.w1, x.w2, x.w3].flatMap Word.bytes := rfl
  have hword : blockWord x j.val = [x.w0, x.w1, x.w2, x.w3][j.val] := by fin_cases j <;> rfl
  rw [hbytes, hword]
  exact packWord_packsBigEndian fun b hb => (getD_flatMap_bytes j.isLt hb).symm

theorem portRead_key_packsBigEndian (s : State) (j : Fin 8) :
    PacksBigEndian (s.portRead (.key j)) fun b => (s.key.toList.flatMap Word.bytes).getD (4 * j.val + b) 0 := by
  refine packWord_packsBigEndian fun b hb => ?_
  rw [getD_flatMap_bytes (by simp) hb]
  rfl

theorem portRead_ibuf_packsBigEndian (s : State) (k : Nat) :
    PacksBigEndian (s.portRead (.ibuf k)) fun b => s.ibuf.read (k + b) :=
  packWord_packsBigEndian fun b hb => by interval_cases b <;> rfl

/-- A valid byte of an OBUF word reads in its position, whatever the bytes beside it are (20_memory.md R37). -/
theorem portRead_obuf_byte {s : State} {k b : Nat} (hb : b < 4) (hlt : k + b < s.outlen.toNat) :
    (s.portRead (.obuf k)).extractLsb' (24 - 8 * b) 8 = s.obuf.read (k + b) := calc
  _ = s.obufByte (k + b) := (packWord_byte _ hb).trans (by interval_cases b <;> rfl)
  _ = s.obuf.read (k + b) := if_pos hlt

theorem portRead_rks_packsBigEndian {s : State} {j : Fin 60} (hv : s.rkvalid = true)
    (hj : j.val < 4 * (s.nr.toNat + 1)) :
    PacksBigEndian (s.portRead (.rks j)) fun b => s.rks[j].bytes.getD b 0 := by
  have hword : s.rksWord j = s.rks[j] := if_pos ⟨hv, hj⟩
  rw [State.portRead, hword]
  exact packWord_packsBigEndian fun _ _ => rfl

/-- Settles O17: every array is read through `packWord`, which puts byte `b` of a word `b` bytes below the top. -/
theorem windowPacksBigEndian : Obligations.WindowPacksBigEndian := fun s =>
  ⟨portRead_key_packsBigEndian s, blockWord_packsBigEndian s.iv, blockWord_packsBigEndian s.din,
    blockWord_packsBigEndian s.dout, blockWord_packsBigEndian s.prev, portRead_ibuf_packsBigEndian s,
    fun _ _ => portRead_obuf_byte, fun _ => portRead_rks_packsBigEndian, rfl, rfl,
    BitVec.toNat_setWidth_of_le (by omega), BitVec.toNat_setWidth_of_le (by omega), rfl, rfl, rfl⟩

end Sys2Proof.Machine
end

section
/-! PROOFS. A command reads IBUF below `INLEN` only (O53): each operation does the same on a state whose IBUF is replaced. -/

namespace Sys2Proof.Machine

/-- The state `s` with another IBUF. -/
def State.withIbuf (s : State) (m : Mem) : State := { s with ibuf := m }

section WithIbuf
variable (s : State) (m : Mem)

@[simp] theorem State.withIbuf_ibuf : (s.withIbuf m).ibuf = m := rfl
@[simp] theorem State.withIbuf_prev : (s.withIbuf m).prev = s.prev := rfl
@[simp] theorem State.withIbuf_inlen : (s.withIbuf m).inlen = s.inlen := rfl
@[simp] theorem State.withIbuf_cfg : (s.withIbuf m).cfg = s.cfg := rfl
@[simp] theorem State.withIbuf_schedule : (s.withIbuf m).schedule = s.schedule := rfl
@[simp] theorem State.withIbuf_inputTooLong : (s.withIbuf m).inputTooLong = s.inputTooLong := rfl

/-! ### What does not read IBUF -/

theorem expandKey_withIbuf : (s.withIbuf m).expandKey = s.expandKey.map fun u => u.withIbuf m := by
  rw [expandKey_eq, expandKey_eq, apply_ite (Except.map _)]
  rfl

theorem ensureSchedule_withIbuf :
    (s.withIbuf m).ensureSchedule = s.ensureSchedule.map fun u => u.withIbuf m := by
  unfold State.ensureSchedule
  rw [expandKey_withIbuf, apply_ite (Except.map _)]
  rfl

theorem blockCommand_withIbuf (f : Block → List Word → Block) :
    (s.withIbuf m).blockCommand f = (s.blockCommand f).map fun u => u.withIbuf m := by
  unfold State.blockCommand
  rw [ensureSchedule_withIbuf]
  cases s.ensureSchedule <;> rfl

theorem chainCommand_withIbuf (f : Block → Block → List Word → Block × Block) :
    (s.withIbuf m).chainCommand f = (s.chainCommand f).map fun u => u.withIbuf m := by
  unfold State.chainCommand
  rw [ensureSchedule_withIbuf]
  cases s.ensureSchedule with
  | error e => rfl
  | ok u =>
    dsimp only
    rw [apply_ite (Except.map _)]
    rfl

theorem streamStart_withIbuf (mode : Mode) :
    (s.withIbuf m).streamStart mode = (s.streamStart mode).map fun u => u.withIbuf m := by
  unfold State.streamStart
  rw [ensureSchedule_withIbuf]
  cases s.ensureSchedule with
  | error e => rfl
  | ok u =>
    cases mode with
    | ecb => rfl
    | cbc =>
      dsimp only
      rw [apply_ite (Except.map _), apply_ite (Except.map _)]
      rfl

theorem streamDataError_withIbuf (i : Instr) (mode : Mode) (e : ErrKind) :
    (s.withIbuf m).streamDataError i mode e = (s.streamDataError i mode e).withIbuf m := by
  cases mode <;> rfl

end WithIbuf

theorem finish_withIbuf {s t : State} {m : Mem} {i : Instr} {r r' : Except ErrKind State}
    (hr : r' = r.map fun u => u.withIbuf m) (h : s.finish i r = .next t) :
    (s.withIbuf m).finish i r' = .next (t.withIbuf m) := by
  subst hr
  cases r <;> cases h <;> rfl

/-! ### What reads the input -/

section SameInput
variable {s : State} {m : Mem} (h : (s.withIbuf m).input = s.input)
include h

theorem padCommand_withIbuf (i : Instr) (f : List Byte → Except ErrKind (List Byte)) :
    (s.withIbuf m).padCommand i f = (s.padCommand i f).withIbuf m := by
  unfold State.padCommand
  rw [h, State.withIbuf_inputTooLong]
  split
  · rfl
  · cases f s.input <;> rfl

theorem sencStream_withIbuf (i : Instr) (mode : Mode) (p : PadPolicy) :
    (s.withIbuf m).sencStream i mode p = (s.sencStream i mode p).withIbuf m := by
  simp only [State.sencStream, h, State.withIbuf_inlen]
  cases pad p (s.input.drop (16 * (s.inlen.toNat / 16))) with
  | error e => exact streamDataError_withIbuf s m i mode e
  | ok chunk => rfl

theorem sdecStream_withIbuf (i : Instr) (mode : Mode) (p : PadPolicy) :
    (s.withIbuf m).sdecStream i mode p = (s.sdecStream i mode p).withIbuf m := by
  simp only [State.sdecStream, h, State.withIbuf_inlen, State.withIbuf_cfg, State.withIbuf_prev,
    State.withIbuf_schedule]
  split
  · exact streamDataError_withIbuf s m i mode .unalignedData
  · split
    · exact streamDataError_withIbuf s m i mode _
    · rfl

/-- A stream start keeps IBUF and `INLEN`, so the stream after it has the same input again. -/
theorem streamStart_sameInput {u : State} {mode : Mode} (hu : s.streamStart mode = .ok u) :
    (u.withIbuf m).input = u.input := by
  obtain ⟨_, _, _, _, _, hinlen, hibuf⟩ := streamStart_keepsInputs hu
  simp only [State.input, State.withIbuf_ibuf, State.withIbuf_inlen] at h ⊢
  rw [hinlen, hibuf]
  exact h

theorem streamCommand_withIbuf (i : Instr) (mode : Mode) {body : State → State}
    (hbody : ∀ u : State, (u.withIbuf m).input = u.input → body (u.withIbuf m) = (body u).withIbuf m) :
    (s.withIbuf m).streamCommand i mode body = (s.streamCommand i mode body).withIbuf m := by
  unfold State.streamCommand
  rw [streamStart_withIbuf, State.withIbuf_inputTooLong]
  split
  · rfl
  · cases hu : s.streamStart mode with
    | error e => rfl
    | ok u => exact hbody u (streamStart_sameInput h hu)

theorem senc_withIbuf (i : Instr) (mode : Mode) (p : PadPolicy) :
    (s.withIbuf m).senc i mode p = (s.senc i mode p).withIbuf m :=
  streamCommand_withIbuf h i mode fun _ hu => sencStream_withIbuf hu i mode p

theorem sdec_withIbuf (i : Instr) (mode : Mode) (p : PadPolicy) :
    (s.withIbuf m).sdec i mode p = (s.sdec i mode p).withIbuf m :=
  streamCommand_withIbuf h i mode fun _ hu => sdecStream_withIbuf hu i mode p

/-! ### Every command -/

theorem exec_withIbuf {i : Instr} {t : State} (hi : i ≠ .rst) (ht : exec i s = .next t) :
    exec i (s.withIbuf m) = .next (t.withIbuf m) := by
  cases i with
  | kexp => exact finish_withIbuf (expandKey_withIbuf s m) ht
  | encb | decb | mencEcb | mdecEcb => exact finish_withIbuf (blockCommand_withIbuf s m _) ht
  | mencCbc | mdecCbc => exact finish_withIbuf (chainCommand_withIbuf s m _) ht
  | minitEcb | minitCbc => exact finish_withIbuf (streamStart_withIbuf s m _) ht
  | padPkcs7 | padZero | padNone | unpadPkcs7 | unpadZero | unpadNone =>
    cases ht; exact congrArg Host.Outcome.next (padCommand_withIbuf h _ _)
  | sencEcbPkcs7 | sencCbcPkcs7 | sencEcbZero | sencCbcZero | sencEcbNone | sencCbcNone =>
    cases ht; exact congrArg Host.Outcome.next (senc_withIbuf h _ _ _)
  | sdecEcbPkcs7 | sdecCbcPkcs7 | sdecEcbZero | sdecCbcZero | sdecEcbNone | sdecCbcNone =>
    cases ht; exact congrArg Host.Outcome.next (sdec_withIbuf h _ _ _)
  | clrerr => cases ht; rfl
  | rst => exact absurd rfl hi

end SameInput

/-- Settles O53: below `INLEN` the two contents of IBUF are one input, and no operation reads more of IBUF than the
input. `RST` leaves an unspecified IBUF from both states. -/
theorem surplusInputIsNotRead : Obligations.SurplusInputIsNotRead := by
  intro i s t m ht hsame
  have hinput : (s.withIbuf m).input = s.input :=
    Mem.readBytes_congr fun k hk => by rw [Nat.zero_add]; exact hsame k hk
  by_cases hi : i = .rst
  · subst hi
    cases ht
    exact ⟨_, rfl, rfl⟩
  · exact ⟨t.withIbuf m, exec_withIbuf hinput hi ht, rfl⟩

end Sys2Proof.Machine
end

section
/-! PROOFS. The decoder, the encoder and the list of legal words agree (O2, O3). -/

namespace Sys2Proof.Laws.Encoding

/-- The family Encoding of the statements per instruction, for every command (30_encoding.md R50 to R53). -/
theorem statement (i : Instr) : Statement i :=
  Instr.rec (motive := Statement) kexp encb decb minitEcb minitCbc mencEcb mencCbc mdecEcb mdecCbc
    padPkcs7 padZero padNone unpadPkcs7 unpadZero unpadNone
    sencEcbPkcs7 sencCbcPkcs7 sencEcbZero sencCbcZero sencEcbNone sencCbcNone
    sdecEcbPkcs7 sdecCbcPkcs7 sdecEcbZero sdecCbcZero sdecEcbNone sdecCbcNone clrerr rst i

end Sys2Proof.Laws.Encoding

namespace Sys2Proof.Machine

@[simp] theorem fieldsOf_encode (i : Instr) : fieldsOf (encode i) = i.fields :=
  (Laws.Encoding.statement i).1

theorem fields_wellFormed (i : Instr) : i.fields.wellFormed = true :=
  (Laws.Encoding.statement i).2.1

@[simp] theorem decode_encode (i : Instr) : decode (encode i) = .ok i :=
  (Laws.Encoding.statement i).2.2

/-- The only word of a command is the one its fields make (30_encoding.md R53). -/
theorem decode_eq_ok_iff {c : Reg32} {i : Instr} : decode c = .ok i ↔ c = encode i :=
  ⟨eq_encode_of_decode, fun h => h ▸ decode_encode i⟩

/-- Settles O3: `encode` inverts `decode` on the words of commands, and every command is well-formed. -/
theorem decodeAndEncodeAgree : Obligations.DecodeAndEncodeAgree :=
  ⟨fun i _ => decode_encode i, fun _ i h => ⟨(eq_encode_of_decode h).symm, fields_wellFormed i⟩⟩

/-- Settles O2: each listed word is the word of its command, and every command is listed with its word. -/
theorem legalWordsAreExactlyTheList : Obligations.LegalWordsAreExactlyTheList := by
  unfold Obligations.LegalWordsAreExactlyTheList
  intro listed
  have sound : ∀ p ∈ listed, p.1 = encode p.2 := by unfold listed; decide
  have complete (i : Instr) : (encode i, i) ∈ listed := by cases i <;> decide
  exact ⟨rfl, fun c i => decode_eq_ok_iff.trans ⟨fun h => h ▸ complete i, sound (c, i)⟩⟩

end Sys2Proof.Machine
end

section
/-! PROOFS. The dispatch of a write to `CMD` (O6). -/

namespace Sys2Proof.Machine

theorem step_cmdWrite {s : State} {c : Reg32} {rest : List HostMove} (hs : s.host = .write 4 0x000 c :: rest) :
    step s = cmdWrite c { s with host := rest } := by
  rw [step, hostStep, hs]
  rfl

section CmdWrite
variable {c : Reg32} {s : State}

/-- A command runs when no error is recorded, and `CLRERR` and `RST` always do (30_encoding.md R54). -/
theorem cmdWrite_of_decode {i : Instr} (hd : decode c = .ok i) (hgate : s.err = .noError ∨ i = .clrerr ∨ i = .rst) :
    cmdWrite c s = exec i s := by
  rcases cmdWrite_cases c s with ⟨j, hj, _, h⟩ | ⟨_, ⟨_, hr⟩, _⟩ | ⟨he, hclr, hrst, _⟩
  · cases hd.symm.trans hj
    exact h
  · cases hd.symm.trans hr
  · rcases hgate with herr | rfl | rfl
    · exact absurd herr he
    · exact absurd hd hclr
    · exact absurd hd hrst

theorem cmdWrite_of_illegal (he : s.err = .noError) (hd : ∀ i, decode c ≠ .ok i) :
    cmdWrite c s = .next { s with err := .illegalCommand, errcmd := c } := by
  rcases cmdWrite_cases c s with ⟨i, hi, _⟩ | ⟨_, _, h⟩ | ⟨hne, _⟩
  · exact absurd hi (hd i)
  · exact h
  · exact absurd he hne

/-- In the error state every word but those of `CLRERR` and `RST` is held back (60_exceptions.md R197). -/
theorem cmdWrite_of_error (he : s.err ≠ .noError) (hclr : c ≠ encode .clrerr) (hrst : c ≠ encode .rst) :
    cmdWrite c s = .next s := by
  rcases cmdWrite_cases c s with ⟨i, hd, hgate, _⟩ | ⟨herr, _⟩ | ⟨_, _, _, h⟩
  · obtain rfl := eq_encode_of_decode hd
    rcases hgate with herr | rfl | rfl
    · exact absurd herr he
    · exact absurd rfl hclr
    · exact absurd rfl hrst
  · exact absurd herr he
  · exact h

end CmdWrite

/-- Settles O6, by what a write of a word to `CMD` does when the word runs, is illegal or is held back. -/
theorem cmdWriteDispatches : Obligations.CmdWriteDispatches := by
  intro s c rest hs u
  rw [step_cmdWrite hs]
  refine ⟨?_, ?_, cmdWrite_of_error (s := u), cmdWrite_of_illegal (s := u), ?_⟩
  · rintro _ rfl
    exact cmdWrite_of_decode (decode_encode .clrerr) (.inr (.inl rfl))
  · rintro _ rfl
    exact cmdWrite_of_decode (decode_encode .rst) (.inr (.inr rfl))
  · exact fun he i hd => cmdWrite_of_decode (s := u) hd (.inl he)

end Sys2Proof.Machine
end

section
/-! PROOFS. The words that 30_encoding.md R55 calls illegal (O4). -/

namespace Sys2Proof.Machine

theorem wordOfFields_fieldsOf (c : Reg32) : wordOfFields (fieldsOf c) = c := by
  apply BitVec.eq_of_getLsbD_eq
  intro k hk
  simp only [wordOfFields, fieldsOf, BitVec.getLsbD_append, BitVec.getLsbD_extractLsb']
  interval_cases k <;> simp

/-- No condition of R55 holds, on the numbers in the fields. -/
theorem wellFormed_iff (f : CommandFields) :
    f.wellFormed = true ↔
      f.rsvd = 0 ∧ ((1 ≤ f.opc.toNat ∧ f.opc.toNat ≤ 0x0A) ∨ f.opc.toNat = 0x0E ∨ f.opc.toNat = 0x0F) ∧
      f.mode.toNat ≤ 1 ∧ f.padp.toNat ≤ 2 ∧
      (f.mode.toNat = 0 ∨ f.opc.toNat ∈ [0x04, 0x05, 0x06, 0x09, 0x0A]) ∧
      (f.padp.toNat = 0 ∨ f.opc.toNat ∈ [0x07, 0x08, 0x09, 0x0A]) := by
  simp [CommandFields.wellFormed, CommandFields.reservedClear, CommandFields.opcAssigned, CommandFields.modeLegal,
    CommandFields.padpLegal, CommandFields.modeAllowed, CommandFields.padpAllowed, ← BitVec.toNat_inj, and_assoc,
    or_assoc]

/-- The assigned values of `OPC` (30_encoding.md R52). -/
def assignedOpcs : List (BitVec 8) :=
  [0x01, 0x02, 0x03, 0x04, 0x05, 0x06, 0x07, 0x08, 0x09, 0x0A, 0x0E, 0x0F]

theorem mem_assignedOpcs {opc : BitVec 8}
    (h : (1 ≤ opc.toNat ∧ opc.toNat ≤ 0x0A) ∨ opc.toNat = 0x0E ∨ opc.toNat = 0x0F) : opc ∈ assignedOpcs := by
  simp [assignedOpcs, ← BitVec.toNat_inj]
  omega

/-- Fields that no condition of R55 excludes are those of a command: the reserved bits are clear and the code is
assigned, and what remains are the values of `MODE` and `PADP` under each code. -/
theorem exists_fields_of_wellFormed {f : CommandFields} (h : f.wellFormed = true) : ∃ i : Instr, i.fields = f := by
  have listed : ∀ opc ∈ assignedOpcs, ∀ mode padp : BitVec 2,
      CommandFields.wellFormed ⟨opc, mode, padp, 0⟩ = true →
        ⟨opc, mode, padp, 0⟩ ∈ legalWords.map (·.2.fields) := by decide
  obtain ⟨hrsvd, hopc, _⟩ := (wellFormed_iff f).1 h
  obtain ⟨opc, mode, padp, rsvd⟩ := f
  subst hrsvd
  obtain ⟨p, _, hp⟩ := List.mem_map.1 (listed opc (mem_assignedOpcs hopc) mode padp h)
  exact ⟨p.2, hp⟩

theorem exists_decode_iff_wellFormed {c : Reg32} : (∃ i, decode c = .ok i) ↔ (fieldsOf c).wellFormed = true := by
  constructor
  · rintro ⟨i, hd⟩
    rw [eq_encode_of_decode hd, fieldsOf_encode]
    exact fields_wellFormed i
  · intro h
    obtain ⟨i, hi⟩ := exists_fields_of_wellFormed h
    exact ⟨i, decode_eq_ok_iff.2 (by rw [encode, hi, wordOfFields_fieldsOf])⟩

/-- The conditions of R55 that make a word illegal, on the numbers in its fields. -/
theorem illegal_iff_not_wellFormed (f : CommandFields) :
    (f.rsvd ≠ 0 ∨ (f.opc.toNat = 0x00 ∨ (0x0B ≤ f.opc.toNat ∧ f.opc.toNat ≤ 0x0D) ∨ 0x10 ≤ f.opc.toNat) ∨
      (f.mode.toNat = 2 ∨ f.mode.toNat = 3) ∨ f.padp.toNat = 3 ∨
      (f.mode.toNat ≠ 0 ∧ f.opc.toNat ∈ [0x01, 0x02, 0x03, 0x07, 0x08, 0x0E, 0x0F]) ∨
      (f.padp.toNat ≠ 0 ∧ f.opc.toNat ∈ [0x01, 0x02, 0x03, 0x04, 0x05, 0x06, 0x0E, 0x0F])) ↔
    ¬ f.wellFormed = true := by
  rw [wellFormed_iff]
  by_cases hrsvd : f.rsvd = 0
  · have hmode := f.mode.isLt
    have hpadp := f.padp.isLt
    simp only [hrsvd, ne_eq, not_true_eq_false, false_or, true_and, or_false, List.mem_cons, List.not_mem_nil]
    constructor
    · omega
    · omega
  · simp only [hrsvd, ne_eq, not_false_eq_true, true_or, false_and]

/-- Settles O4: a word decodes exactly when its fields are well-formed, that is, when no condition of R55 holds. -/
theorem illegalWordsRaise : Obligations.IllegalWordsRaise := by
  intro c opc mode padp illegal
  have not_decodes : illegal ↔ ∀ i, decode c ≠ .ok i := by
    rw [← not_exists, exists_decode_iff_wellFormed]
    exact illegal_iff_not_wellFormed (fieldsOf c)
  refine ⟨not_decodes, fun h => ⟨rfl, fun s rest hs he => ?_⟩⟩
  rw [step_cmdWrite hs]
  exact cmdWrite_of_illegal he (not_decodes.1 h)

end Sys2Proof.Machine
end

section
/-! PROOFS. The laws of GF(2^8) modulo 0x11B (O23). Products are linear over exclusive or in each operand, so laws that
are linear too need checking on the eight single-bit bytes only. -/

namespace Sys2Proof.Machine

/-- Every byte arises from 0 by adding single-bit bytes: its low `n` bits do, for each `n`. -/
theorem Byte.xor_induction {P : Byte → Prop} (zero : P 0)
    (add_bit : ∀ (a : Byte) (i : Fin 8), P a → P (a ^^^ BitVec.twoPow 8 i)) (a : Byte) : P a := by
  have low_bits (n : Nat) (hn : n ≤ 8) : P ((a.setWidth n).setWidth 8) := by
    induction n with
    | zero => simpa [BitVec.of_length_zero] using zero
    | succ n ih =>
      have low := ih (by omega)
      cases hbit : a.getLsbD n with
      | false => rwa [BitVec.setWidth_setWidth_succ_eq_setWidth_setWidth_of_getLsbD_false hbit]
      | true =>
        have add : (a.setWidth (n + 1)).setWidth 8 = (a.setWidth n).setWidth 8 ^^^ BitVec.twoPow 8 n := by
          ext k hk
          by_cases hkn : k = n
          · simp [hkn, hbit]
          · simp [BitVec.getElem_twoPow, hkn, Nat.le_iff_lt_or_eq]
        exact add ▸ add_bit _ ⟨n, hn⟩ low
  simpa using low_bits 8 le_rfl

/-- A map of bytes that is linear over exclusive or, as doubling and each product are. -/
def XorLinear (f : Byte → Byte) : Prop := ∀ a b, f (a ^^^ b) = f a ^^^ f b

theorem XorLinear.map_zero {f : Byte → Byte} (hf : XorLinear f) : f 0 = 0 := by
  simpa using hf 0 0

/-- Linear maps that agree on the single-bit bytes are equal. -/
theorem XorLinear.eq_of_bits {f g : Byte → Byte} (hf : XorLinear f) (hg : XorLinear g)
    (bits : ∀ i : Fin 8, f (BitVec.twoPow 8 i) = g (BitVec.twoPow 8 i)) (a : Byte) : f a = g a := by
  induction a using Byte.xor_induction with
  | zero => rw [hf.map_zero, hg.map_zero]
  | add_bit a i ih => rw [hf, hg, ih, bits]

/-- Multiplication is linear in the second operand (R61). -/
theorem gmul_xor_right (a b c : Byte) : gmul a (b ^^^ c) = gmul a b ^^^ gmul a c :=
  gmulLoop_xor_right a b c 0 0 8

theorem xorLinear_gmul_right (a : Byte) : XorLinear (gmul a) := gmul_xor_right a

theorem xorLinear_gmul_left (b : Byte) : XorLinear (gmul · b) := (gmul_xor_left · · b)

theorem gmul_zero_right (a : Byte) : gmul a 0 = 0 := (xorLinear_gmul_right a).map_zero

theorem gmul_one_left (a : Byte) : gmul 0x01 a = a :=
  (xorLinear_gmul_right 0x01).eq_of_bits (g := id) (fun _ _ => rfl) (by decide) a

theorem gmul_two_left (a : Byte) : gmul 0x02 a = xtime a :=
  (xorLinear_gmul_right 0x02).eq_of_bits xtime_xor (by decide) a

theorem gmul_comm (a b : Byte) : gmul a b = gmul b a := by
  have bits : ∀ i j : Fin 8,
      gmul (BitVec.twoPow 8 i) (BitVec.twoPow 8 j) = gmul (BitVec.twoPow 8 j) (BitVec.twoPow 8 i) := by
    decide +kernel
  have left_bit (i : Fin 8) : gmul (BitVec.twoPow 8 i) b = gmul b (BitVec.twoPow 8 i) :=
    (xorLinear_gmul_right _).eq_of_bits (xorLinear_gmul_left _) (bits i) b
  exact (xorLinear_gmul_left b).eq_of_bits (xorLinear_gmul_right b) left_bit a

/-- The loop of R61 commutes with every linear map that commutes with doubling. -/
theorem gmulLoop_map {f : Byte → Byte} (hf : XorLinear f) (hx : ∀ a, f (xtime a) = xtime (f a)) (a b p : Byte)
    (n : Nat) : gmulLoop (f a) b (f p) n = f (gmulLoop a b p n) := by
  induction n generalizing a b p with
  | zero => rfl
  | succ n ih => rw [gmulLoop, gmulLoop, ← hx, ← hf, ← apply_ite f, ih]

theorem gmul_map {f : Byte → Byte} (hf : XorLinear f) (hx : ∀ a, f (xtime a) = xtime (f a)) (a b : Byte) :
    gmul (f a) b = f (gmul a b) := by
  have map := gmulLoop_map hf hx a b 0 8
  rwa [hf.map_zero] at map

theorem gmul_xtime_left (a b : Byte) : gmul (xtime a) b = xtime (gmul a b) :=
  gmul_map xtime_xor (fun _ => rfl) a b

theorem gmul_xtime_right (a b : Byte) : gmul a (xtime b) = xtime (gmul a b) := by
  rw [gmul_comm, gmul_xtime_left, gmul_comm]

/-- Multiplication by `a` is itself linear and commutes with doubling. -/
theorem gmul_assoc (a b c : Byte) : gmul (gmul a b) c = gmul a (gmul b c) :=
  gmul_map (xorLinear_gmul_right a) (gmul_xtime_right a) b c

/-- Inversion is not linear, so this is checked at each of the 255 bytes (R63). -/
theorem gmul_ginv : ∀ a : Byte, a ≠ 0 → gmul a (ginv a) = 0x01 := by decide +kernel

/-- The inverse is unique, since products associate (R63). -/
theorem gmul_eq_one_iff {a : Byte} (ha : a ≠ 0) (b : Byte) : gmul a b = 0x01 ↔ b = ginv a := by
  constructor
  · intro h
    calc b = gmul (gmul a (ginv a)) b := by rw [gmul_ginv a ha, gmul_one_left]
      _ = gmul (ginv a) (gmul a b) := by rw [gmul_comm a, gmul_assoc]
      _ = ginv a := by rw [h, gmul_comm, gmul_one_left]
  · rintro rfl
    exact gmul_ginv a ha

theorem ginv_zero : ginv 0 = 0 := by
  simp only [ginv, gsquare, gmul_zero_right]

/-- Settles O23: linearity reduces commutativity to single bits, associativity follows as a product is linear and
commutes with doubling, and the two make the inverse unique. -/
theorem fieldLaws : Obligations.FieldLaws :=
  ⟨fun a => ⟨gmul_one_left a, gmul_two_left a, rfl⟩, gmul_comm, gmul_assoc, gmul_xor_right,
    fun _ ha => gmul_eq_one_iff ha, ginv_zero⟩

end Sys2Proof.Machine
end

section
/-! PROOFS. The tables hold what the rules of 40_gf_and_tables.md compute (O24, O25). A table of 256 entries is compared
with its definition entry by entry. -/

namespace Sys2Proof.Machine

theorem sbox_eq_sboxFormula : ∀ a : Byte, sbox a = sboxFormula a := by decide +kernel

theorem sbox_ne_self : ∀ a : Byte, sbox a ≠ a := by decide +kernel

@[simp] theorem invSbox_sbox : ∀ a : Byte, invSbox (sbox a) = a := by decide +kernel

/-- A left inverse on a finite type is a right inverse (R66). -/
@[simp] theorem sbox_invSbox (a : Byte) : sbox (invSbox a) = a :=
  Function.LeftInverse.rightInverse_of_card_le invSbox_sbox le_rfl a

theorem rcon_succ {j : Nat} (h1 : 1 ≤ j) (h10 : j < 10) : rcon (j + 1) = xtime (rcon j) := by
  interval_cases j <;> rfl

/-- Settles O24: the substitution tables entry by entry, the round constants by their recurrence. -/
theorem substitutionTablesAgree : Obligations.SubstitutionTablesAgree :=
  ⟨fun a => ⟨sbox_eq_sboxFormula a, sbox_ne_self a, invSbox_sbox a, sbox_invSbox a⟩, rfl, fun _ => rcon_succ, rfl⟩

/-- The constants that have a product table, each with its table (R62). -/
def productTables : List (Byte × List (List Byte)) :=
  [(0x02, mul02Rows), (0x03, mul03Rows), (0x09, mul09Rows), (0x0B, mul0bRows), (0x0D, mul0dRows), (0x0E, mul0eRows)]

theorem mem_productTables_of_mulRows {c : Byte} {rows : List (List Byte)} (h : mulRows c = some rows) :
    (c, rows) ∈ productTables := by
  unfold mulRows at h
  split_ifs at h with hc hc hc hc hc hc
  all_goals
    obtain rfl := Option.some.inj h
    simp [productTables, hc]

theorem tableAt_productTables : ∀ p ∈ productTables, ∀ x : Byte, tableAt p.2 x = gmul p.1 x := by decide +kernel

/-- Settles O25: each table that `mulRows` gives is one of the six, and these are compared entry by entry. -/
theorem productTablesHoldProducts : Obligations.ProductTablesHoldProducts :=
  ⟨rfl, rfl, rfl, rfl, rfl, rfl, gmul_one_left,
    fun _ _ h => tableAt_productTables _ (mem_productTables_of_mulRows h)⟩

end Sys2Proof.Machine
end

section
/-! PROOFS. The key expansion, the round keys and `KEXP` (O26 to O28). -/

namespace Sys2Proof.Machine

/-! ### The words of an expansion -/

theorem wordOfBytes_drop (l : List Byte) (a : Nat) :
    wordOfBytes (l.drop a) = ⟨l.getD a 0, l.getD (a + 1) 0, l.getD (a + 2) 0, l.getD (a + 3) 0⟩ := by
  simp only [wordOfBytes, List.getD_eq_getElem?_getD, List.getElem?_drop, Nat.add_zero]

/-- Word `i` of a byte sequence is its bytes `4i` to `4i + 3` (R82). -/
theorem wordsOfBytes_getD (l : List Byte) {n i : Nat} (hi : i < n) :
    (wordsOfBytes l n).getD i .zero = wordOfBytes (l.drop (4 * i)) := by
  induction n generalizing l i with
  | zero => omega
  | succ n ih =>
    cases i with
    | zero => rfl
    | succ i =>
      rw [wordsOfBytes, List.getD_cons_succ, ih _ (by omega), List.drop_drop, Nat.mul_succ, Nat.add_comm]

/-- The only sequence `expand` can answer (R83). -/
theorem eq_expandFrom_of_expand {key : List Byte} {w : List Word} (h : expand key = .ok w) :
    w = expandFrom (key.length / 4) (key.length / 4) (wordsOfBytes key (key.length / 4))
      (4 * (key.length / 4 + 6 + 1) - key.length / 4) := by
  rw [expand, if_pos (expand_length h).1] at h
  exact (Except.ok.inj h).symm

section Expansion
variable {key : List Byte} {w : List Word} (h : expand key = .ok w)
include h

/-- The first `Nk` words of an expansion are the key's own (R82, R83). -/
theorem expand_getD_key {i : Nat} (hi : i < key.length / 4) : w.getD i .zero = wordOfBytes (key.drop (4 * i)) := by
  rw [eq_expandFrom_of_expand h, expandFrom_getD_old _ (wordsOfBytes_length ..) hi, wordsOfBytes_getD key hi]

/-- Each later word of an expansion is the next one after those before it (R83). -/
theorem expand_getD_next {i : Nat} (hnk : key.length / 4 ≤ i) (hi : i < w.length) :
    w.getD i .zero = nextWord (key.length / 4) i w := by
  obtain ⟨hlegal, hlen⟩ := expand_length h
  have hkey := keyLengthLegal_iff.1 hlegal
  have later := expandFrom_getD_new (j := i) (n := 4 * (key.length / 4 + 6 + 1) - key.length / 4)
    (wordsOfBytes_length key (key.length / 4)) (by omega) le_rfl hnk (by omega)
  rwa [← eq_expandFrom_of_expand h] at later

/-- Round key 0 is the first block of the key (R82, R84). -/
theorem roundKey_zero_of_expand : roundKey w 0 = blockOfBytes key := by
  have hkey := keyLengthLegal_iff.1 (expand_length h).1
  simp (disch := omega) only [roundKey, expand_getD_key h]
  rfl

end Expansion

/-- Settles O26: the words `expandFrom` starts with are the key's, and each word it adds is `nextWord`, whose
transform has three cases. -/
theorem expandFollowsRecurrence : Obligations.ExpandFollowsRecurrence := by
  intro key
  rcases expand_cases key with ⟨hlegal, w, hw, hlen⟩ | ⟨hlegal, herr⟩
  · have hkey := keyLengthLegal_iff.1 hlegal
    refine ⟨fun hn => by omega, fun _ => ⟨w, hw, hlen, fun i hi => ?own, fun i hnk hi => ?later⟩⟩
    case own => rw [expand_getD_key hw hi, wordOfBytes_drop]
    case later =>
      rw [expand_getD_next hw hnk hi, nextWord, expandTransform]
      refine ⟨fun h0 => ?_, fun h0 h8 h4 => ?_, fun h0 hn => ?_⟩
      · rw [if_pos h0]; rfl
      · rw [if_neg h0, if_pos ⟨h8, h4⟩]; rfl
      · rw [if_neg h0, if_neg (by omega)]
  · have hkey := keyLengthLegal_iff.not.1 (Bool.eq_false_iff.1 hlegal)
    exact ⟨fun _ => herr, fun h => absurd h hkey⟩

/-! ### Round keys -/

/-- Byte `4c + k` of a round key is byte `k` of its word `c` (R84). -/
theorem roundKey_byte (w : List Word) (r : Nat) {c k : Nat} (hc : c < 4) (hk : k < 4) :
    (roundKey w r).bytes.getD (4 * c + k) 0 = (w.getD (4 * r + c) .zero).bytes.getD k 0 := by
  have words : (roundKey w r).bytes = ((List.range 4).map fun c => w.getD (4 * r + c) .zero).flatMap Word.bytes := rfl
  rw [words, getD_flatMap_bytes (by simpa using hc) hk, List.getElem_map, List.getElem_range]

/-- Settles O27: the words are in order within a round key, and round key 0 is the block of the key's first four
words. -/
theorem roundKeysGroupWords : Obligations.RoundKeysGroupWords := by
  refine ⟨fun w r _ _ => roundKey_byte w r, fun key w h => ?_⟩
  obtain ⟨hlegal, hlen⟩ := expand_length h
  have hkey := keyLengthLegal_iff.1 hlegal
  exact ⟨by omega, by omega, by rw [roundKey_zero_of_expand h, blockOfBytes_bytes (by omega)]⟩

/-! ### `KEXP` -/

theorem klen_legal_iff {s : State} :
    keyLengthLegal s.klen.toNat = true ↔ s.klen = 16 ∨ s.klen = 24 ∨ s.klen = 32 := by
  simp only [keyLengthLegal_iff, ← BitVec.toNat_inj]
  rfl

theorem exec_kexp_legal {s : State} (h : keyLengthLegal s.klen.toNat = true) :
    exec .kexp s = .next (s.setSchedule s.expansion) := by
  rw [exec, execKexp, expandKey_eq, if_pos h, finish_ok]

theorem exec_kexp_illegal {s : State} (h : ¬ keyLengthLegal s.klen.toNat = true) :
    exec .kexp s = .next (s.raiseIn .kexp .invalidKeySize) := by
  rw [exec, execKexp, expandKey_eq, if_neg h, finish_error]

/-- Settles O28: with a legal `KLEN` the command leaves a coherent schedule, with any other it raises. -/
theorem kexpExpandsKey : Obligations.KexpExpandsKey := by
  refine fun s => ⟨fun h => ?legal, fun h => ?illegal⟩
  case legal =>
    have hk := klen_legal_iff.2 h
    obtain ⟨coherent, _⟩ := setSchedule_coherent hk
    obtain ⟨_, _, _, hexpand⟩ := coherent rfl
    obtain ⟨hnk, hnr⟩ := nk_toNat hk
    exact ⟨_, exec_kexp_legal hk, hexpand, rfl, hnk, hnr, rfl⟩
  case illegal => exact exec_kexp_illegal (klen_legal_iff.not.2 (by simpa [not_or] using h))

end Sys2Proof.Machine
end

section
/-! PROOFS. A command reads no word of `KEY` at and above `KLEN` bytes (O54): it reads `KEY` only to expand it. -/

namespace Sys2Proof.Machine

/-- The bytes of two lists of words agree below `n` when their words that begin below `n` do. -/
theorem take_flatMap_bytes_congr {l l' : List Word} {n : Nat} (hlen : l.length = l'.length)
    (h : ∀ j, 4 * j < n → l[j]? = l'[j]?) :
    (l.flatMap Word.bytes).take n = (l'.flatMap Word.bytes).take n := by
  induction l generalizing l' n with
  | nil => rw [List.eq_nil_of_length_eq_zero hlen.symm]
  | cons w l ih =>
    obtain _ | ⟨w', l'⟩ := l'
    · cases hlen
    rcases Nat.eq_zero_or_pos n with rfl | hn
    · rfl
    obtain rfl : w = w' := by simpa using h 0 hn
    simp only [List.flatMap_cons, List.take_append, Word.bytes_length]
    rw [ih (n := n - 4) (Nat.succ.inj hlen) fun j hj => by simpa using h (j + 1) (by omega)]

/-- The state `s` with another `KEY`. -/
def State.withKey (s : State) (k : Vector Word 8) : State := { s with key := k }

/-- `KEY[0..KLEN)` consists of the words that begin below `KLEN` (10_state.md R10). -/
theorem keyBytes_withKey {s : State} {k : Vector Word 8}
    (h : ∀ j : Fin 8, 4 * j.val < s.klen.toNat → k[j] = s.key[j]) :
    (s.withKey k).keyBytes = s.keyBytes := by
  refine take_flatMap_bytes_congr (by simp) fun j hj => ?_
  by_cases hj8 : j < 8
  · have := h ⟨j, hj8⟩ hj
    simpa [State.withKey, hj8] using this
  · simp [hj8]

/-! ### What does not read `KEY` -/

section WithKey
variable (s : State) (k : Vector Word 8)

@[simp] theorem State.withKey_input : (s.withKey k).input = s.input := rfl
@[simp] theorem State.withKey_inlen : (s.withKey k).inlen = s.inlen := rfl
@[simp] theorem State.withKey_cfg : (s.withKey k).cfg = s.cfg := rfl
@[simp] theorem State.withKey_prev : (s.withKey k).prev = s.prev := rfl
@[simp] theorem State.withKey_schedule : (s.withKey k).schedule = s.schedule := rfl
@[simp] theorem State.withKey_inputTooLong : (s.withKey k).inputTooLong = s.inputTooLong := rfl

theorem finish_withKey {s t : State} {k : Vector Word 8} {i : Instr} {r r' : Except ErrKind State}
    (hr : r' = r.map (·.withKey k)) (ht : s.finish i r = .next t) :
    (s.withKey k).finish i r' = .next (t.withKey k) := by
  subst hr
  cases r <;> cases ht <;> rfl

theorem padCommand_withKey (i : Instr) (f : List Byte → Except ErrKind (List Byte)) :
    (s.withKey k).padCommand i f = (s.padCommand i f).withKey k := by
  simp only [State.padCommand, State.withKey_input, State.withKey_inputTooLong, apply_ite (State.withKey · k)]
  cases f s.input <;> rfl

theorem streamDataError_withKey (i : Instr) (m : Mode) (e : ErrKind) :
    (s.withKey k).streamDataError i m e = (s.streamDataError i m e).withKey k := by
  cases m <;> rfl

theorem sencStream_withKey (i : Instr) (m : Mode) (p : PadPolicy) :
    (s.withKey k).sencStream i m p = (s.sencStream i m p).withKey k := by
  simp only [State.sencStream, State.withKey_input, State.withKey_inlen]
  cases pad p (s.input.drop (16 * (s.inlen.toNat / 16))) with
  | error e => exact streamDataError_withKey s k i m e
  | ok chunk => rfl

theorem sdecStream_withKey (i : Instr) (m : Mode) (p : PadPolicy) :
    (s.withKey k).sdecStream i m p = (s.sdecStream i m p).withKey k := by
  simp only [State.sdecStream, State.withKey_input, State.withKey_inlen, State.withKey_cfg, State.withKey_prev,
    State.withKey_schedule, streamDataError_withKey, apply_ite (State.withKey · k)]
  cases unpad s.cfg.zeroUnpad p
    (bytesOfBlocks (decBlocks m s.schedule (blocksOfBytes s.input (s.inlen.toNat / 16)) s.prev).1) <;> rfl

end WithKey

/-! ### The one place that reads `KEY` -/

section SameKeyBytes
variable {s : State} {k : Vector Word 8} (h : (s.withKey k).keyBytes = s.keyBytes)
include h

theorem expandKey_withKey : (s.withKey k).expandKey = s.expandKey.map (·.withKey k) := by
  have hexp : (s.withKey k).expansion = s.expansion := by rw [State.expansion, h, State.expansion]
  rw [expandKey_eq, expandKey_eq, hexp, apply_ite (Except.map _)]
  rfl

theorem ensureSchedule_withKey : (s.withKey k).ensureSchedule = s.ensureSchedule.map (·.withKey k) := by
  rw [State.ensureSchedule, expandKey_withKey h, State.ensureSchedule, apply_ite (Except.map _)]
  rfl

theorem blockCommand_withKey (f : Block → List Word → Block) :
    (s.withKey k).blockCommand f = (s.blockCommand f).map (·.withKey k) := by
  rw [State.blockCommand, ensureSchedule_withKey h, State.blockCommand]
  cases s.ensureSchedule <;> rfl

theorem chainCommand_withKey (f : Block → Block → List Word → Block × Block) :
    (s.withKey k).chainCommand f = (s.chainCommand f).map (·.withKey k) := by
  rw [State.chainCommand, ensureSchedule_withKey h, State.chainCommand]
  cases s.ensureSchedule with
  | error e => rfl
  | ok u =>
    simp only [apply_ite (Except.map _)]
    rfl

theorem streamStart_withKey (m : Mode) :
    (s.withKey k).streamStart m = (s.streamStart m).map (·.withKey k) := by
  rw [State.streamStart, ensureSchedule_withKey h, State.streamStart]
  cases s.ensureSchedule with
  | error e => rfl
  | ok u =>
    cases m with
    | ecb => rfl
    | cbc =>
      simp only [apply_ite (Except.map _)]
      rfl

theorem streamCommand_withKey (i : Instr) (m : Mode) {body : State → State}
    (hbody : ∀ u : State, body (u.withKey k) = (body u).withKey k) :
    (s.withKey k).streamCommand i m body = (s.streamCommand i m body).withKey k := by
  rw [State.streamCommand, streamStart_withKey h, State.streamCommand, apply_ite (State.withKey · k)]
  cases s.streamStart m with
  | error e => rfl
  | ok u => exact congrArg (ite _ _) (hbody u)

theorem exec_withKey {i : Instr} {t : State} (hi : i ≠ .rst) (ht : exec i s = .next t) :
    exec i (s.withKey k) = .next (t.withKey k) := by
  cases i with
  | kexp => exact finish_withKey (expandKey_withKey h) ht
  | encb | decb | mencEcb | mdecEcb => exact finish_withKey (blockCommand_withKey h _) ht
  | mencCbc | mdecCbc => exact finish_withKey (chainCommand_withKey h _) ht
  | minitEcb | minitCbc => exact finish_withKey (streamStart_withKey h _) ht
  | padPkcs7 | padZero | padNone | unpadPkcs7 | unpadZero | unpadNone =>
    cases ht; exact congrArg Host.Outcome.next (padCommand_withKey s k _ _)
  | sencEcbPkcs7 | sencCbcPkcs7 | sencEcbZero | sencCbcZero | sencEcbNone | sencCbcNone =>
    cases ht; exact congrArg Host.Outcome.next (streamCommand_withKey h _ _ fun u => sencStream_withKey u k _ _ _)
  | sdecEcbPkcs7 | sdecCbcPkcs7 | sdecEcbZero | sdecCbcZero | sdecEcbNone | sdecCbcNone =>
    cases ht; exact congrArg Host.Outcome.next (streamCommand_withKey h _ _ fun u => sdecStream_withKey u k _ _ _)
  | clrerr => cases ht; rfl
  | rst => exact absurd rfl hi

end SameKeyBytes

/-- Settles O54: the two contents of `KEY` have the same bytes below `KLEN`, and the expansion of those is all that a
command reads of it. `RST` leaves an unspecified `KEY` from both states. -/
theorem keyTailIsNotRead : Obligations.KeyTailIsNotRead := by
  intro i s t k ht hsame
  by_cases hi : i = .rst
  · subst hi
    cases ht
    exact ⟨_, rfl, rfl⟩
  · exact ⟨t.withKey k, exec_withKey (keyBytes_withKey hsame) hi ht, rfl⟩

end Sys2Proof.Machine
end

section
/-! PROOFS. The block cipher: its round transforms and their inverses, its rounds, and the commands ENCB and DECB
(O29 to O32). -/

namespace Sys2Proof.Machine

/-! ### Each transform and its inverse -/

@[simp] theorem Word.xor_xor_cancel_right (a b : Word) : (a.xor b).xor b = a := by
  simp [Word.xor]

@[simp] theorem Block.xor_xor_cancel_right (a b : Block) : (a.xor b).xor b = a := by
  simp [Block.xor]

@[simp] theorem addRoundKey_addRoundKey (s rk : Block) : addRoundKey (addRoundKey s rk) rk = s :=
  Block.xor_xor_cancel_right s rk

@[simp] theorem invSubBytes_subBytes (s : Block) : invSubBytes (subBytes s) = s := by
  simp [invSubBytes, subBytes, invSubword, subword]

@[simp] theorem subBytes_invSubBytes (s : Block) : subBytes (invSubBytes s) = s := by
  simp [invSubBytes, subBytes, invSubword, subword]

@[simp] theorem invShiftRows_shiftRows (s : Block) : invShiftRows (shiftRows s) = s := rfl

@[simp] theorem shiftRows_invShiftRows (s : Block) : shiftRows (invShiftRows s) = s := rfl

/-- Circulant matrices multiply to a circulant matrix, whose first column is the first matrix times the first column
of the second. -/
theorem mixColumn_mixColumn (m0 m1 m2 m3 n0 n1 n2 n3 : Byte) (c : Word) :
    mixColumn m0 m1 m2 m3 (mixColumn n0 n1 n2 n3 c) =
      let p := mixColumn m0 m1 m2 m3 ⟨n0, n3, n2, n1⟩
      mixColumn p.b0 p.b3 p.b2 p.b1 c := by
  simp only [mixColumn, mixRow, gmul_xor_right, gmul_xor_left, gmul_assoc, Word.mk.injEq]
  refine ⟨?_, ?_, ?_, ?_⟩
  all_goals ac_rfl

theorem gmul_zero_left (a : Byte) : gmul 0 a = 0 := (xorLinear_gmul_left a).map_zero

theorem mixColumn_identity (c : Word) : mixColumn 0x01 0 0 0 c = c := by
  simp only [mixColumn, mixRow, gmul_one_left, gmul_zero_left]
  simp

/-- A circulant matrix that takes the first column of another to that of the identity matrix undoes the other. -/
theorem mixColumn_undoes {m0 m1 m2 m3 n0 n1 n2 n3 : Byte}
    (h : mixColumn m0 m1 m2 m3 ⟨n0, n3, n2, n1⟩ = ⟨0x01, 0, 0, 0⟩) (c : Word) :
    mixColumn m0 m1 m2 m3 (mixColumn n0 n1 n2 n3 c) = c := by
  rw [mixColumn_mixColumn, h, mixColumn_identity]

@[simp] theorem invMixColumns_mixColumns (s : Block) : invMixColumns (mixColumns s) = s := by
  have column : mixColumn 0x0E 0x0B 0x0D 0x09 ⟨0x02, 0x01, 0x01, 0x03⟩ = ⟨0x01, 0, 0, 0⟩ := by decide
  simp only [invMixColumns, mixColumns, mixColumn_undoes column]

@[simp] theorem mixColumns_invMixColumns (s : Block) : mixColumns (invMixColumns s) = s := by
  have column : mixColumn 0x02 0x03 0x01 0x01 ⟨0x0E, 0x09, 0x0D, 0x0B⟩ = ⟨0x01, 0, 0, 0⟩ := by decide
  simp only [invMixColumns, mixColumns, mixColumn_undoes column]

/-- Settles O29: the row shifts are inverse permutations, the tables inverse on each byte, and the two matrices
multiply to the identity. -/
theorem inverseTransformsUndo : Obligations.InverseTransformsUndo := fun s rk =>
  ⟨addRoundKey_addRoundKey s rk, invSubBytes_subBytes s, subBytes_invSubBytes s, invShiftRows_shiftRows s,
    shiftRows_invShiftRows s, invMixColumns_mixColumns s, mixColumns_invMixColumns s⟩

/-! ### The rounds -/

@[simp] theorem decRound_encRound (w : List Word) (r : Nat) (s : Block) : decRound w r (encRound w r s) = s := by
  simp only [decRound, encRound, addRoundKey_addRoundKey, invMixColumns_mixColumns, invShiftRows_shiftRows,
    invSubBytes_subBytes]

@[simp] theorem encRound_decRound (w : List Word) (r : Nat) (s : Block) : encRound w r (decRound w r s) = s := by
  simp only [decRound, encRound, addRoundKey_addRoundKey, mixColumns_invMixColumns, shiftRows_invShiftRows,
    subBytes_invSubBytes]

@[simp] theorem decRounds_encRounds (w : List Word) (n : Nat) (s : Block) : decRounds w n (encRounds w n s) = s := by
  induction n with
  | zero => rfl
  | succ n ih => rw [encRounds, decRounds, decRound_encRound, ih]

@[simp] theorem encRounds_decRounds (w : List Word) (n : Nat) (s : Block) : encRounds w n (decRounds w n s) = s := by
  induction n generalizing s with
  | zero => rfl
  | succ n ih => rw [decRounds, encRounds, ih, encRound_decRound]

@[simp] theorem decryptBlock_encryptBlock (b : Block) (w : List Word) : decryptBlock (encryptBlock b w) w = b := by
  simp [decryptBlock, encryptBlock]

@[simp] theorem encryptBlock_decryptBlock (b : Block) (w : List Word) : encryptBlock (decryptBlock b w) w = b := by
  simp [decryptBlock, encryptBlock]

/-- Settles O31: decryption undoes the steps of encryption in the opposite order, round by round. -/
theorem blockCipherRoundTrip : Obligations.BlockCipherRoundTrip := fun b w =>
  ⟨decryptBlock_encryptBlock b w, encryptBlock_decryptBlock b w⟩

theorem roundsOf_eq {w : List Word} {nr : Nat} (h : w.length = 4 * (nr + 1)) : roundsOf w = nr := by
  simp [roundsOf, h]

/-- The State with which decryption enters its rounds `Nr - 1` to 1 is the one that encryption of the result has
after its rounds 1 to `Nr - 1` (R110, R111). -/
theorem encRounds_addRoundKey_decryptBlock (b : Block) (w : List Word) :
    encRounds w (roundsOf w - 1) (addRoundKey (decryptBlock b w) (roundKey w 0)) =
      invSubBytes (invShiftRows (addRoundKey b (roundKey w (roundsOf w)))) := by
  rw [decryptBlock, addRoundKey_addRoundKey, encRounds_decRounds]

/-- Settles O30: the bytes by going through the rows and columns. The States of encryption are those of `encRounds`;
those of decryption are, since each round undoes the same round of encryption, the States that the encryption of the
result passes through. -/
theorem transformsAndRoundsAreAsListed : Obligations.TransformsAndRoundsAreAsListed := by
  refine ⟨fun s k r c hr hc => ?bytes, fun b w nr hnr hlen => ⟨?encryption, ?decryption⟩⟩
  case bytes =>
    interval_cases r <;> interval_cases c <;> exact ⟨rfl, rfl, rfl, rfl, rfl, rfl, rfl⟩
  case encryption =>
    refine ⟨fun r => encRounds w r (addRoundKey b (roundKey w 0)), rfl, fun r h1 _ => ?_, ?_⟩
    · obtain ⟨n, rfl⟩ := Nat.exists_eq_add_of_le' h1
      rfl
    · rw [encryptBlock, roundsOf_eq hlen]
  case decryption =>
    refine ⟨fun r => encRounds w (r - 1) (addRoundKey (decryptBlock b w) (roundKey w 0)), ?_, fun r h1 _ => ?_, ?_⟩
    · rw [← roundsOf_eq hlen]
      exact encRounds_addRoundKey_decryptBlock b w
    · obtain ⟨n, rfl⟩ := Nat.exists_eq_add_of_le' h1
      exact (decRound_encRound w (n + 1) _).symm
    · exact (addRoundKey_addRoundKey _ _).symm

/-! ### `ENCB` and `DECB` -/

/-- A block command that can run: `DOUT`, the schedule, and the frame (R113, R114). -/
theorem finish_blockCommand_ready {s : State} (h : s.KeyReady) (i : Instr) (f : Block → List Word → Block) :
    ∃ t, s.finish i (s.blockCommand f) = .next t ∧ t.dout = f s.din s.activeSchedule ∧ ScheduleEnsured s t ∧
      SameIbuf s t ∧ SameObuf s t ∧
      t = { s with dout := t.dout, rks := t.rks, nk := t.nk, nr := t.nr, rkvalid := t.rkvalid, free := t.free } := by
  rcases blockCommand_cases s f with ⟨_, t, ht, hdout, hens, frame⟩ | ⟨hn, _⟩
  · exact ⟨t, by rw [ht, finish_ok], hdout, hens, fun _ => by rw [frame], fun _ => by rw [frame], frame⟩
  · exact absurd h hn

theorem finish_blockCommand_notReady {s : State} (h : ¬ s.KeyReady) (i : Instr) (f : Block → List Word → Block) :
    s.finish i (s.blockCommand f) = .next (s.raiseIn i .invalidKeySize) := by
  rw [State.blockCommand, ensureSchedule_notReady h, finish_error]

/-- Settles O32: both commands are the block command of their direction. -/
theorem blockCommandsCipherDin : Obligations.BlockCommandsCipherDin := fun _ =>
  ⟨fun h => ⟨finish_blockCommand_ready h .encb _, finish_blockCommand_ready h .decb _⟩,
    fun h => ⟨finish_blockCommand_notReady h .encb _, finish_blockCommand_notReady h .decb _⟩⟩

end Sys2Proof.Machine
end

section
/-! PROOFS. Padding and unpadding of byte sequences, and the commands `PAD` and `UNPAD` (O33 to O37). -/

namespace Sys2Proof.Machine

/-! ### Unpadding under PKCS7 -/

theorem unpadPkcs7_append_replicate (out : List Byte) {n : Nat} (h1 : 1 ≤ n) (h16 : n ≤ 16) :
    unpadPkcs7 (out ++ List.replicate n (BitVec.ofNat 8 n)) = .ok out := by
  have hlen : (out ++ List.replicate n (BitVec.ofNat 8 n)).length = out.length + n := by simp
  have hlast : (out ++ List.replicate n (BitVec.ofNat 8 n)).getD (out.length + n - 1) 0 = BitVec.ofNat 8 n := by
    rw [List.getD_append_right _ _ _ _ (by omega), List.getD_replicate _ (by omega)]
  have hn : (BitVec.ofNat 8 n).toNat = n := by rw [BitVec.toNat_ofNat]; omega
  simp only [unpadPkcs7, hlen, hlast, hn]
  rw [if_neg (by omega), if_neg (by omega), if_neg (by omega), Nat.add_sub_cancel, List.drop_left, List.take_left,
    if_pos (by simp)]

theorem unpadPkcs7_eq_ok {data out : List Byte} (h : unpadPkcs7 data = .ok out) :
    ∃ n, 1 ≤ n ∧ n ≤ 16 ∧ data = out ++ List.replicate n (BitVec.ofNat 8 n) := by
  simp only [unpadPkcs7] at h
  split at h
  next => cases h
  next =>
    generalize data.getD (data.length - 1) 0 = last at h
    split_ifs at h with hrange hlen hall
    -- the last `n` bytes are `n` copies of the last one, whose value is `n`
    have htail : data.drop (data.length - last.toNat) = List.replicate last.toNat last :=
      List.eq_replicate_iff.2 ⟨by rw [List.length_drop]; omega, by simpa using hall⟩
    refine ⟨last.toNat, by omega, by omega, ?_⟩
    cases h
    rw [BitVec.ofNat_toNat, BitVec.setWidth_eq, ← htail, List.take_append_drop]

theorem unpadPkcs7_eq_ok_iff {data out : List Byte} :
    unpadPkcs7 data = .ok out ↔ ∃ n, 1 ≤ n ∧ n ≤ 16 ∧ data = out ++ List.replicate n (BitVec.ofNat 8 n) := by
  refine ⟨unpadPkcs7_eq_ok, ?_⟩
  rintro ⟨n, h1, h16, rfl⟩
  exact unpadPkcs7_append_replicate out h1 h16

theorem unpadPkcs7_eq_error {data : List Byte} (h : ∀ out, unpadPkcs7 data ≠ .ok out) :
    unpadPkcs7 data = .error .invalidPadding := by
  cases he : unpadPkcs7 data with
  | ok out => exact absurd he (h out)
  | error e => rw [(unpad_error (z := .nothing) (p := .pkcs7) he).2]

/-- Settles O34, by the two directions of what `unpadPkcs7` accepts. -/
theorem pkcs7UnpadValidates : Obligations.Pkcs7UnpadValidates := fun _ =>
  ⟨fun _ => unpadPkcs7_eq_ok_iff, unpadPkcs7_eq_error⟩

/-! ### Unpadding under Zero -/

/-- What `dropZeros` removes: zero bytes, at most `limit`, and all the leading ones when fewer (R134). -/
theorem dropZeros_spec (limit : Nat) (l : List Byte) :
    ∃ k ≤ limit, l = List.replicate k 0x00 ++ dropZeros limit l ∧
      (k < limit → (dropZeros limit l).head? ≠ some 0x00) := by
  fun_induction dropZeros limit l with
  | case1 l => exact ⟨0, Nat.le_refl _, rfl, fun h => absurd h (Nat.lt_irrefl _)⟩
  | case2 n => exact ⟨0, Nat.zero_le _, rfl, nofun⟩
  | case3 n rest ih =>
    obtain ⟨k, hk, heq, hhead⟩ := ih
    exact ⟨k + 1, Nat.succ_le_succ hk, congrArg (List.cons 0x00) heq, fun h => hhead (Nat.lt_of_succ_lt_succ h)⟩
  | case4 n b rest hb => exact ⟨0, Nat.zero_le _, rfl, fun _ h => hb (Option.some.inj h)⟩

/-- What `stripZeros` removes, at the other end. -/
theorem stripZeros_spec (limit : Nat) (data : List Byte) :
    ∃ k ≤ limit, data = stripZeros limit data ++ List.replicate k 0x00 ∧
      (k < limit → (stripZeros limit data).getLast? ≠ some 0x00) := by
  obtain ⟨k, hk, heq, hhead⟩ := dropZeros_spec limit data.reverse
  refine ⟨k, hk, ?_, fun h => List.getLast?_reverse.symm ▸ hhead h⟩
  rw [stripZeros, ← List.reverse_replicate, ← List.reverse_append, ← heq, List.reverse_reverse]

/-- Under `strip_all` no trailing zero byte is left, also when the data are zeros only. -/
theorem unpadZeros_stripAll_spec (data : List Byte) :
    ∃ k, data = unpadZeros .stripAll data ++ List.replicate k 0x00 ∧
      (unpadZeros .stripAll data).getLast? ≠ some 0x00 := by
  obtain ⟨k, hk, heq, hlast⟩ := stripZeros_spec data.length data
  refine ⟨k, heq, ?_⟩
  rcases Nat.lt_or_eq_of_le hk with hlt | hall
  · exact hlast hlt
  · have hnil : unpadZeros .stripAll data = [] := by
      have := congrArg List.length heq
      rw [List.length_append, List.length_replicate] at this
      exact List.eq_nil_of_length_eq_zero (by rw [unpadZeros]; omega)
    rw [hnil]
    nofun

/-- Settles O35, by what `stripZeros` removes under each limit. -/
theorem zeroUnpadStripsZeros : Obligations.ZeroUnpadStripsZeros := fun data =>
  ⟨unpadZeros_stripAll_spec data, stripZeros_spec 15 data, rfl⟩

/-! ### Unpadding what was padded -/

theorem dropZeros_replicate_append (k limit : Nat) (l : List Byte) :
    dropZeros (k + limit) (List.replicate k 0x00 ++ l) = dropZeros limit l := by
  induction k with
  | zero => simp
  | succ k ih => rw [Nat.succ_add, List.replicate_succ, List.cons_append, dropZeros, if_pos rfl, ih]

/-- Zeros appended to the data do not change what `strip_all` leaves. -/
theorem unpadZeros_stripAll_append_zeros (d : List Byte) (k : Nat) :
    unpadZeros .stripAll (d ++ List.replicate k 0x00) = unpadZeros .stripAll d := by
  rw [unpadZeros, unpadZeros, stripZeros, stripZeros, List.reverse_append, List.reverse_replicate,
    List.length_append, List.length_replicate, Nat.add_comm, dropZeros_replicate_append]

theorem unpadZeros_stripAll_eq_self_iff (d : List Byte) :
    unpadZeros .stripAll d = d ↔ d.getLast? ≠ some 0x00 := by
  obtain ⟨k, heq, hlast⟩ := unpadZeros_stripAll_spec d
  refine ⟨fun h => h ▸ hlast, fun h => ?_⟩
  cases k with
  | zero => exact (List.append_nil _).symm.trans heq.symm
  | succ k => exact absurd (by rw [heq, List.replicate_succ', ← List.append_assoc, List.getLast?_concat]) h

/-- Zeros up to the length of the data restore what `strip_all` removed. -/
theorem unpadZeros_stripAll_append_replicate (d : List Byte) :
    unpadZeros .stripAll d ++ List.replicate (d.length - (unpadZeros .stripAll d).length) 0x00 = d := by
  obtain ⟨k, heq, _⟩ := unpadZeros_stripAll_spec d
  have hk : d.length - (unpadZeros .stripAll d).length = k := by
    have := congrArg List.length heq
    rw [List.length_append, List.length_replicate] at this
    omega
  rw [hk, ← heq]

theorem pad_eq_append {p : PadPolicy} {d q : List Byte} (h : pad p d = .ok q) : ∃ e, q = d ++ e := by
  cases p with
  | pkcs7 => cases h; exact ⟨_, rfl⟩
  | zero => cases h; exact ⟨_, rfl⟩
  | none =>
    simp only [pad] at h
    split_ifs at h
    cases h
    exact ⟨[], (List.append_nil _).symm⟩

theorem unpad_none_of_pad {z : ZeroUnpad} {d q : List Byte} (h : pad .none d = .ok q) : unpad z .none q = .ok d := by
  simp only [pad] at h
  split_ifs at h
  exact h.symm

/-- Settles O37: PKCS7 unpadding accepts what PKCS7 appends, and the zeros of the other policy do not change what
`strip_all` leaves. -/
theorem unpadUndoesPad : Obligations.UnpadUndoesPad := by
  refine ⟨fun d => ⟨_, rfl, unpadPkcs7_append_replicate d (by omega) (Nat.sub_le _ _)⟩, fun _ _ _ => unpad_none_of_pad,
    fun d => ⟨_, rfl, ?_⟩, fun _ _ _ h => ⟨(pad_length h).1, pad_eq_append h⟩⟩
  rw [unpadZeros_stripAll_append_zeros]
  exact ⟨unpadZeros_stripAll_eq_self_iff d, rfl, unpadZeros_stripAll_append_replicate d⟩

/-! ### The commands -/

/-- A successful `PAD` or `UNPAD` writes its output and leaves IBUF and everything else as it was (R136, R139). -/
def OutputsOnly (s t : State) (out : List Byte) : Prop :=
  Outputs t out ∧ SameIbuf s t ∧ t = { s with obuf := t.obuf, outlen := t.outlen, free := t.free }

/-- A data error of `PAD` or `UNPAD` is recorded, and the content of OBUF is lost (60_exceptions.md R195, R196). -/
def FailsOnData (s t : State) (i : Instr) (e : ErrKind) : Prop :=
  t = { s with err := e, errcmd := encode i, outlen := 0, obuf := t.obuf, free := t.free }

theorem isBuffer_padInstr (p : PadPolicy) : isBuffer (padInstr p) = true := by cases p <;> rfl

theorem isBuffer_unpadInstr (p : PadPolicy) : isBuffer (unpadInstr p) = true := by cases p <;> rfl

section PadCommand

variable {s : State} {i : Instr} {f : List Byte → Except ErrKind (List Byte)}

theorem padCommand_tooLong (h : s.cfg.bufcap < s.inlen.toNat) (hi : isBuffer i = true) :
    s.padCommand i f = { s with err := .ioError, errcmd := encode i, outlen := 0 } := by
  rcases padCommand_cases s i f with ⟨_, hrun⟩ | ⟨hfits, _⟩
  · rw [hrun, State.raiseIn, hi]
    rfl
  · omega

theorem padCommand_outputsOnly (h : s.inlen.toNat ≤ s.cfg.bufcap) {out : List Byte} (hf : f s.input = .ok out)
    (hlen : out.length ≤ s.cfg.bufcap + 16) : OutputsOnly s (s.padCommand i f) out := by
  have hrun : s.padCommand i f = s.setOutput out := by
    rcases padCommand_cases s i f with ⟨hlong, _⟩ | ⟨_, ⟨_, ho, hrun⟩ | ⟨_, he, _⟩⟩
    · omega
    · cases ho.symm.trans hf
      exact hrun
    · cases he.symm.trans hf
  obtain ⟨k, hk, _⟩ := bufcap_eq s.cfg
  rw [hrun]
  exact ⟨setOutput_outputs s (by omega), fun _ => rfl, rfl⟩

theorem padCommand_failsOnData (h : s.inlen.toNat ≤ s.cfg.bufcap) {e : ErrKind} (hf : f s.input = .error e)
    (hi : isBuffer i = true) : FailsOnData s (s.padCommand i f) i e := by
  rcases padCommand_cases s i f with ⟨hlong, _⟩ | ⟨_, ⟨_, ho, _⟩ | ⟨_, he, hrun⟩⟩
  · omega
  · cases ho.symm.trans hf
  · cases he.symm.trans hf
    rw [hrun, State.padDataError, State.raiseIn, hi]
    rfl

end PadCommand

theorem exec_pad_outputsOnly {s : State} {p : PadPolicy} {out : List Byte} (h : s.inlen.toNat ≤ s.cfg.bufcap)
    (hp : pad p s.input = .ok out) : ∃ t, exec (padInstr p) s = .next t ∧ OutputsOnly s t out := by
  obtain ⟨_, _, hlen⟩ := pad_length hp
  rw [input_length] at hlen
  exact ⟨_, exec_pad s p, padCommand_outputsOnly h hp (by omega)⟩

theorem exec_unpad_outputsOnly {s : State} {p : PadPolicy} {out : List Byte} (h : s.inlen.toNat ≤ s.cfg.bufcap)
    (hp : unpad s.cfg.zeroUnpad p s.input = .ok out) : ∃ t, exec (unpadInstr p) s = .next t ∧ OutputsOnly s t out := by
  have hlen := unpad_length hp
  rw [input_length] at hlen
  exact ⟨_, exec_unpad s p, padCommand_outputsOnly h hp (by omega)⟩

theorem outlen_eq_inlen {s t : State} (h : Outputs t s.input) : t.outlen = s.inlen :=
  BitVec.eq_of_toNat_eq (h.1.trans (input_length s))

theorem outlen_toNat_eq_add {s t : State} {n : Nat} {b : Byte} (h : Outputs t (s.input ++ List.replicate n b)) :
    t.outlen.toNat = s.inlen.toNat + n := by
  rw [h.1, List.length_append, input_length, List.length_replicate]

/-- Settles O33: the output is `pad` of the input, and `PAD` fails where `pad` does or the input is too long. -/
theorem padCommandsPadInput : Obligations.PadCommandsPadInput := by
  refine fun s => ⟨fun h => ⟨?pkcs7, ?zero, fun hal => ?aligned, fun hal => ?unaligned⟩, fun h p => ?tooLong⟩
  case pkcs7 =>
    obtain ⟨t, hrun, hout, frame⟩ := exec_pad_outputsOnly (p := .pkcs7) h rfl
    rw [input_length] at hout
    exact ⟨t, hrun, hout, by rw [outlen_toNat_eq_add hout]; omega, frame⟩
  case zero =>
    obtain ⟨t, hrun, hout, frame⟩ := exec_pad_outputsOnly (p := .zero) h rfl
    rw [input_length] at hout
    exact ⟨t, hrun, hout, by rw [outlen_toNat_eq_add hout]; omega, frame⟩
  case aligned =>
    obtain ⟨t, hrun, hout, frame⟩ := exec_pad_outputsOnly (p := .none) h (if_pos (by rwa [input_length]))
    exact ⟨t, hrun, hout, outlen_eq_inlen hout, frame⟩
  case unaligned =>
    exact ⟨_, rfl, padCommand_failsOnData h (if_neg (by rwa [input_length])) rfl⟩
  case tooLong => rw [exec_pad, padCommand_tooLong h (isBuffer_padInstr p)]

/-- Settles O36: the output is `unpad` of the input, and `UNPAD` fails where `unpad` does or the input is too long. -/
theorem unpadCommandsUnpadInput : Obligations.UnpadCommandsUnpadInput := by
  refine fun s => ⟨fun h => ⟨fun out n h1 h16 hin => ?padded, fun hbad => ?invalid, ?zero, ?none⟩, fun h p => ?tooLong⟩
  case padded =>
    exact exec_unpad_outputsOnly (p := .pkcs7) h (unpadPkcs7_eq_ok_iff.2 ⟨n, h1, h16, hin⟩)
  case invalid =>
    have herr := unpadPkcs7_eq_error fun out hout => hbad ⟨out, unpadPkcs7_eq_ok hout⟩
    exact ⟨_, rfl, padCommand_failsOnData h herr rfl⟩
  case zero => exact exec_unpad_outputsOnly (p := .zero) h rfl
  case none =>
    obtain ⟨t, hrun, hout, frame⟩ := exec_unpad_outputsOnly (p := .none) h rfl
    exact ⟨t, hrun, hout, outlen_eq_inlen hout, frame⟩
  case tooLong => rw [exec_unpad, padCommand_tooLong h (isBuffer_unpadInstr p)]

end Sys2Proof.Machine
end

section
/-! PROOFS. The mode functions on sequences of blocks (O41 to O43): round trip, ECB block by block, and how far an error
reaches in CBC (44_mode_controller.md R150, R158). -/

namespace Sys2Proof.Machine

/-! ### Exclusive or and the block cipher are injective -/

theorem Word.xor_comm (a b : Word) : a.xor b = b.xor a := by
  simp [Word.xor, BitVec.xor_comm]

theorem Word.xor_assoc (a b c : Word) : (a.xor b).xor c = a.xor (b.xor c) := by
  simp [Word.xor, BitVec.xor_assoc]

theorem Block.xor_comm (a b : Block) : a.xor b = b.xor a := by
  simp only [Block.xor, Word.xor_comm]

theorem Block.xor_assoc (a b c : Block) : (a.xor b).xor c = a.xor (b.xor c) := by
  simp only [Block.xor, Word.xor_assoc]

theorem Block.xor_zero (a : Block) : a.xor .zero = a := by
  simp [Block.xor, Block.zero, Word.xor, Word.zero]

theorem Block.xor_left_inj {a b c : Block} : a.xor c = b.xor c ↔ a = b :=
  ⟨fun h => by simpa using congrArg (Block.xor · c) h, congrArg (Block.xor · c)⟩

theorem Block.xor_right_inj {a b c : Block} : a.xor b = a.xor c ↔ b = c := by
  rw [Block.xor_comm a, Block.xor_comm a, Block.xor_left_inj]

theorem Block.xor_eq_left_iff {a e : Block} : a.xor e = a ↔ e = .zero := by
  rw [← Block.xor_right_inj (a := a) (b := e), Block.xor_zero]

theorem encryptBlock_inj {a b : Block} {w : List Word} : encryptBlock a w = encryptBlock b w ↔ a = b :=
  ⟨fun h => by simpa using congrArg (decryptBlock · w) h, congrArg (encryptBlock · w)⟩

theorem decryptBlock_inj {a b : Block} {w : List Word} : decryptBlock a w = decryptBlock b w ↔ a = b :=
  ⟨fun h => by simpa using congrArg (encryptBlock · w) h, congrArg (decryptBlock · w)⟩

/-! ### One block and then the rest -/

theorem encBlocks_cons (m : Mode) (w : List Word) (b : Block) (l : List Block) (v : Block) :
    encBlocks m w (b :: l) v =
      ((modeEnc m b v w).1 :: (encBlocks m w l (modeEnc m b v w).2).1, (encBlocks m w l (modeEnc m b v w).2).2) := rfl

theorem decBlocks_cons (m : Mode) (w : List Word) (b : Block) (l : List Block) (v : Block) :
    decBlocks m w (b :: l) v =
      ((modeDec m b v w).1 :: (decBlocks m w l (modeDec m b v w).2).1, (decBlocks m w l (modeDec m b v w).2).2) := rfl

/-! ### Round trip -/

/-- On one block, decryption gives the block back and hands on the chaining value that encryption handed on (R150). -/
theorem modeDec_modeEnc (m : Mode) (b p : Block) (w : List Word) :
    modeDec m (modeEnc m b p w).1 p w = (b, (modeEnc m b p w).2) := by
  cases m with
  | ecb => simp [modeDec, modeEnc]
  | cbc => simp [modeDec, modeEnc, cbcDec, cbcEnc]

theorem decBlocks_encBlocks (m : Mode) (w : List Word) (l : List Block) (v : Block) :
    decBlocks m w (encBlocks m w l v).1 v = (l, (encBlocks m w l v).2) := by
  induction l generalizing v with
  | nil => rfl
  | cons b l ih => simp only [encBlocks_cons, decBlocks_cons, modeDec_modeEnc, ih]

/-- Settles O41: decryption meets the same chaining value before each block as encryption did. -/
theorem modeRoundTrip : Obligations.ModeRoundTrip := by
  intro m w l v
  rw [decBlocks_encBlocks]
  exact ⟨rfl, fun _ => rfl⟩

/-! ### Equal blocks -/

theorem encBlocks_ecb (w : List Word) (l : List Block) (v : Block) :
    encBlocks .ecb w l v = (l.map (encryptBlock · w), v) := by
  induction l with
  | nil => rfl
  | cons b l ih => simp only [encBlocks_cons, modeEnc, ih, List.map_cons]

/-- Settles O42: the block cipher and exclusive or with a fixed block are injective. -/
theorem ecbIsDeterministic : Obligations.EcbIsDeterministic :=
  ⟨fun w l v => congrArg Prod.fst (encBlocks_ecb w l v), fun _ _ _ _ => encryptBlock_inj.trans Block.xor_right_inj⟩

/-! ### Errors in CBC -/

/-- In CBC decryption the chaining value reaches the first block only: the next is decrypted from the ciphertext
block (R150). -/
theorem decBlocks_cbc_cons (w : List Word) (c : Block) (l : List Block) (v : Block) :
    (decBlocks .cbc w (c :: l) v).1 = (decryptBlock c w).xor v :: (decBlocks .cbc w l c).1 := rfl

theorem decBlocks_cbc_append_cons (w : List Word) (pre post : List Block) (c v : Block) :
    (decBlocks .cbc w (pre ++ c :: post) v).1 =
      (decBlocks .cbc w pre v).1 ++
        (decryptBlock c w).xor (decBlocks .cbc w pre v).2 :: (decBlocks .cbc w post c).1 := by
  rw [← decBlocks_cbc_cons, decBlocks, runBlocks_append]
  rfl

/-- An error in the chaining value appears as it is in the first block. -/
theorem decBlocks_cbc_getD_zero_xor (w : List Word) {l : List Block} (hl : l ≠ []) (v e : Block) :
    (decBlocks .cbc w l (v.xor e)).1.getD 0 .zero = ((decBlocks .cbc w l v).1.getD 0 .zero).xor e := by
  obtain ⟨c, l, rfl⟩ := List.exists_cons_of_ne_nil hl
  exact (Block.xor_assoc _ v e).symm

/-- No later block depends on the chaining value. -/
theorem decBlocks_cbc_getD_of_ne_zero (w : List Word) (l : List Block) (v v' : Block) {i : Nat} (hi : i ≠ 0) :
    (decBlocks .cbc w l v).1.getD i .zero = (decBlocks .cbc w l v').1.getD i .zero := by
  obtain ⟨k, rfl⟩ := Nat.exists_eq_succ_of_ne_zero hi
  cases l with
  | nil => rfl
  | cons c l => simp only [decBlocks_cbc_cons, List.getD_cons_succ]

/-- Settles O43: the blocks before the changed one are untouched, its own decryption differs since `decryptBlock` is
injective, and to the rest it is the chaining value. -/
theorem cbcErrorPropagates : Obligations.CbcErrorPropagates := by
  intro w pre post c e v he d d'
  have hd : d = _ := decBlocks_cbc_append_cons w pre post c v
  have hd' : d' = _ := decBlocks_cbc_append_cons w pre post (c.xor e) v
  have hpre := decBlocks_length .cbc w pre v
  refine ⟨?length, ?changed, fun hpost => ?next, fun i hi hi1 => ?others,
    decBlocks_cbc_getD_zero_xor w (List.cons_ne_nil c post) v e,
    fun i hi => decBlocks_cbc_getD_of_ne_zero w (c :: post) _ _ hi⟩
  case length => simp [d, d']
  case changed =>
    rw [hd, hd', List.getD_append_right _ _ _ _ hpre.le, List.getD_append_right _ _ _ _ hpre.le, hpre, Nat.sub_self,
      List.getD_cons_zero, List.getD_cons_zero]
    exact fun h => he (Block.xor_eq_left_iff.1 (decryptBlock_inj.1 (Block.xor_left_inj.1 h)))
  case next =>
    rw [hd, hd', List.getD_append_right _ _ _ _ (by omega), List.getD_append_right _ _ _ _ (by omega), hpre,
      Nat.add_sub_cancel_left, List.getD_cons_succ, List.getD_cons_succ]
    exact decBlocks_cbc_getD_zero_xor w hpost c e
  case others =>
    rw [hd, hd']
    rcases Nat.lt_or_gt_of_ne hi with hbefore | hafter
    · rw [List.getD_append _ _ _ _ (by omega), List.getD_append _ _ _ _ (by omega)]
    · obtain ⟨k, rfl⟩ := Nat.exists_eq_add_of_lt hafter
      rw [List.getD_append_right _ _ _ _ (by omega), List.getD_append_right _ _ _ _ (by omega), hpre,
        show pre.length + k + 1 - pre.length = k + 1 by omega, List.getD_cons_succ, List.getD_cons_succ]
      exact decBlocks_cbc_getD_of_ne_zero w post _ _ (by omega)

end Sys2Proof.Machine
end

section
/-! PROOFS. The commands `MINIT`, `MENC` and `MDEC` (O38 to O40), and the streams under None as sequences of them
(O49). -/

namespace Sys2Proof.Machine

/-! ### `MINIT` -/

theorem streamStart_notReady {s : State} (h : ¬ s.KeyReady) (m : Mode) :
    s.streamStart m = .error .invalidKeySize := by
  rw [State.streamStart, ensureSchedule_notReady h]

theorem streamStart_cbc_missingIV {s : State} (hk : s.KeyReady) (h0 : s.ivlen = 0) :
    s.streamStart .cbc = .error .missingIV := by
  rcases streamStart_cbc_cases s with ⟨_, h16, _⟩ | ⟨_, _, he⟩ | ⟨_, hn, _⟩ | ⟨hn, _⟩
  · exact absurd (h0.symm.trans h16) (by decide)
  · exact he
  · exact absurd h0 hn
  · exact absurd hk hn

theorem streamStart_cbc_invalidIVSize {s : State} (hk : s.KeyReady) (h0 : s.ivlen ≠ 0) (h16 : s.ivlen ≠ 16) :
    s.streamStart .cbc = .error .invalidIVSize := by
  rcases streamStart_cbc_cases s with ⟨_, h, _⟩ | ⟨_, h, _⟩ | ⟨_, _, _, he⟩ | ⟨hn, _⟩
  · exact absurd h h16
  · exact absurd h h0
  · exact he
  · exact absurd hk hn

theorem exec_minit_ok {s u : State} {m : Mode} (h : s.streamStart m = .ok u) : exec (minitInstr m) s = .next u := by
  rw [exec_minit, h, finish_ok]

theorem exec_minit_error {s : State} {m : Mode} {e : ErrKind} (h : s.streamStart m = .error e) :
    exec (minitInstr m) s = .next (s.raiseIn (minitInstr m) e) := by
  rw [exec_minit, h, finish_error]

/-- A `MINIT` that can start its stream: the schedule, the chain, and the frame (R151). -/
theorem exec_minit_ready {s : State} {m : Mode} (h : s.StartReady m) :
    ∃ t, exec (minitInstr m) s = .next t ∧ ScheduleEnsured s t ∧ SameIbuf s t ∧ SameObuf s t ∧
      t = { s with prev := s.startPrev m, ivlen := if m = .ecb then s.ivlen else 0, chainv := decide (m = .cbc),
                   rks := t.rks, nk := t.nk, nr := t.nr, rkvalid := t.rkvalid, free := t.free } := by
  obtain ⟨t, ht, _⟩ := streamStart_ready h
  obtain ⟨_, hens, _, hprev, hchain, hiv, frame⟩ := streamStart_ok ht
  rw [hprev, hchain, hiv] at frame
  exact ⟨t, exec_minit_ok ht, hens, fun _ => by rw [frame], fun _ => by rw [frame], frame⟩

/-- Settles O38: `MINIT` is `stream_start`, and each of its errors is raised on the state before it. -/
theorem minitStartsStream : Obligations.MinitStartsStream := by
  refine fun s => ⟨fun hk => ⟨?ecb, fun h16 => ?cbc, fun h0 => ?missing, fun h0 h16 => ?size⟩, fun hk => ?notReady⟩
  case ecb =>
    obtain ⟨t, ht, hens, hi, ho, frame⟩ := exec_minit_ready (m := .ecb) ⟨hk, nofun⟩
    exact ⟨t, ht, by rw [frame]; rfl, hens, hi, ho, frame⟩
  case cbc => exact exec_minit_ready (m := .cbc) ⟨hk, fun _ => h16⟩
  case missing => exact exec_minit_error (streamStart_cbc_missingIV hk h0)
  case size => exact exec_minit_error (streamStart_cbc_invalidIVSize hk h0 h16)
  case notReady =>
    exact ⟨exec_minit_error (streamStart_notReady hk .ecb), exec_minit_error (streamStart_notReady hk .cbc)⟩

/-! ### `MENC` and `MDEC` -/

/-- A block command that can run does the same under each of its words (R113, R154). -/
theorem finish_blockCommand_congr {s : State} (hk : s.KeyReady) (i j : Instr) (f : Block → List Word → Block) :
    s.finish i (s.blockCommand f) = s.finish j (s.blockCommand f) := by
  rcases blockCommand_cases s f with ⟨_, t, ht, _⟩ | ⟨hn, _⟩
  · rw [ht, finish_ok, finish_ok]
  · exact absurd hk hn

/-- Settles O39: the commands in ECB are the block commands of their direction, as `ENCB` and `DECB` are. -/
theorem ecbBlockCommandsCipherDin : Obligations.EcbBlockCommandsCipherDin := by
  refine fun s => ⟨fun hk => ⟨?enc, ?dec⟩, fun hk =>
    ⟨finish_blockCommand_notReady hk .mencEcb _, finish_blockCommand_notReady hk .mdecEcb _⟩⟩
  case enc =>
    obtain ⟨t, ht, effect⟩ := finish_blockCommand_ready hk .mencEcb encryptBlock
    exact ⟨t, ht, (finish_blockCommand_congr hk .encb .mencEcb _).trans ht, effect⟩
  case dec =>
    obtain ⟨t, ht, effect⟩ := finish_blockCommand_ready hk .mdecEcb decryptBlock
    exact ⟨t, ht, (finish_blockCommand_congr hk .decb .mdecEcb _).trans ht, effect⟩

/-- A chain command in an open chain: `DOUT`, `PREV`, the schedule, and the frame (R155, R157). -/
theorem finish_chainCommand_open {s : State} (hk : s.KeyReady) (hc : s.chainv = true) (i : Instr)
    (f : Block → Block → List Word → Block × Block) :
    ∃ t, s.finish i (s.chainCommand f) = .next t ∧ t.dout = (f s.din s.prev s.activeSchedule).1 ∧
      t.prev = (f s.din s.prev s.activeSchedule).2 ∧ ScheduleEnsured s t ∧ SameIbuf s t ∧ SameObuf s t ∧
      t = { s with dout := t.dout, prev := t.prev, rks := t.rks, nk := t.nk, nr := t.nr, rkvalid := t.rkvalid,
                   free := t.free } := by
  rcases chainCommand_cases s f with ⟨_, _, t, ht, hdout, hprev, hens, frame⟩ | ⟨_, hclosed, _⟩ | ⟨hn, _⟩
  · exact ⟨t, by rw [ht, finish_ok], hdout, hprev, hens, fun _ => by rw [frame], fun _ => by rw [frame], frame⟩
  · exact absurd (hc.symm.trans hclosed) (by decide)
  · exact absurd hk hn

theorem finish_chainCommand_closed {s : State} (hk : s.KeyReady) (hc : s.chainv = false) (i : Instr)
    (f : Block → Block → List Word → Block × Block) :
    s.finish i (s.chainCommand f) = .next (s.raiseIn i .missingIV) := by
  rcases chainCommand_cases s f with ⟨_, hopen, _⟩ | ⟨_, _, he⟩ | ⟨hn, _⟩
  · exact absurd (hc.symm.trans hopen) (by decide)
  · rw [he, finish_error]
  · exact absurd hk hn

theorem finish_chainCommand_notReady {s : State} (hk : ¬ s.KeyReady) (i : Instr)
    (f : Block → Block → List Word → Block × Block) :
    s.finish i (s.chainCommand f) = .next (s.raiseIn i .invalidKeySize) := by
  rw [State.chainCommand, ensureSchedule_notReady hk, finish_error]

/-- Settles O40: both commands are the chain command of their direction; the chaining value is the ciphertext block,
the output of `cbcEnc` and the input of `cbcDec`. -/
theorem cbcBlockCommandsChain : Obligations.CbcBlockCommandsChain := by
  refine fun s => ⟨fun hk hc => ⟨?enc, finish_chainCommand_open hk hc .mdecCbc cbcDec⟩,
    fun hk hc => ⟨finish_chainCommand_closed hk hc .mencCbc _, finish_chainCommand_closed hk hc .mdecCbc _⟩,
    fun hk => ⟨finish_chainCommand_notReady hk .mencCbc _, finish_chainCommand_notReady hk .mdecCbc _⟩⟩
  case enc =>
    obtain ⟨t, ht, hdout, hprev, frame⟩ := finish_chainCommand_open hk hc .mencCbc cbcEnc
    exact ⟨t, ht, hdout, hprev.trans hdout.symm, frame⟩

/-! ### One command per block -/

/-- Once a schedule is valid and, in CBC, a chain open, the command `i` takes `DIN` and `PREV` through the function
`g` of mode `m` and keeps everything but `DOUT` and `PREV` (R154 to R157). -/
def RunsMode (i : Instr) (m : Mode) (g : Block → Block → List Word → Block × Block) : Prop :=
  ∀ s : State, s.rkvalid = true → (m = .cbc → s.chainv = true) →
    exec i s = .next ((s.setDout (g s.din s.prev s.schedule).1).setPrev (g s.din s.prev s.schedule).2)

theorem ensureSchedule_valid {s : State} (h : s.rkvalid = true) : s.ensureSchedule = .ok s := if_pos h

theorem chainCommand_valid_open {s : State} (h : s.rkvalid = true) (hc : s.chainv = true)
    (f : Block → Block → List Word → Block × Block) :
    s.chainCommand f =
      .ok ((s.setDout (f s.din s.prev s.schedule).1).setPrev (f s.din s.prev s.schedule).2) := by
  simp only [State.chainCommand, ensureSchedule_valid h, if_pos hc]

theorem blockCommand_valid {s : State} (h : s.rkvalid = true) (f : Block → List Word → Block) :
    s.blockCommand f = .ok (s.setDout (f s.din s.schedule)) := by
  simp only [State.blockCommand, ensureSchedule_valid h]

theorem runsMode_menc (m : Mode) : RunsMode (mencInstr m) m (modeEnc m) := by
  intro s hv hc
  cases m with
  | ecb => exact congrArg (s.finish .mencEcb) (blockCommand_valid hv encryptBlock)
  | cbc => exact congrArg (s.finish .mencCbc) (chainCommand_valid_open hv (hc rfl) cbcEnc)

theorem runsMode_mdec (m : Mode) : RunsMode (mdecInstr m) m (modeDec m) := by
  intro s hv hc
  cases m with
  | ecb => exact congrArg (s.finish .mdecEcb) (blockCommand_valid hv decryptBlock)
  | cbc => exact congrArg (s.finish .mdecCbc) (chainCommand_valid_open hv (hc rfl) cbcDec)

theorem runPerBlock_cons {i : Instr} {b : Block} {l out : List Block} {s t u : State}
    (hb : exec i { s with din := b } = .next t) (hl : runPerBlock i l t = some (out, u)) :
    runPerBlock i (b :: l) s = some (t.dout :: out, u) := by
  simp only [runPerBlock, hb, hl]

/-- One command per block gives in `DOUT` and leaves in `PREV` what the mode function does on the sequence of blocks. -/
theorem runPerBlock_of_runsMode {i : Instr} {m : Mode} {g : Block → Block → List Word → Block × Block}
    (hi : RunsMode i m g) (l : List Block) {s : State} (hv : s.rkvalid = true) (hc : m = .cbc → s.chainv = true) :
    ∃ t, runPerBlock i l s = some ((runBlocks (g · · s.schedule) l s.prev).1, t) ∧
      t.prev = (runBlocks (g · · s.schedule) l s.prev).2 ∧ t.chainv = s.chainv := by
  induction l generalizing s with
  | nil => exact ⟨s, rfl, rfl, rfl⟩
  | cons b l ih =>
    let r := g b s.prev s.schedule
    obtain ⟨t, hl, hprev, hchain⟩ := ih (s := (({ s with din := b } : State).setDout r.1).setPrev r.2) hv hc
    exact ⟨t, runPerBlock_cons (hi { s with din := b } hv hc) hl, hprev, hchain⟩

/-! ### The streams under None -/

theorem sencStream_none {s : State} {n : Nat} (h : s.inlen.toNat = 16 * n) (i : Instr) (m : Mode) :
    s.sencStream i m .none =
      s.endStream (bytesOfBlocks (encBlocks m s.schedule (blocksOfBytes s.input n) s.prev).1)
        (encBlocks m s.schedule (blocksOfBytes s.input n) s.prev).2 := by
  have hq : s.inlen.toNat / 16 = n := by omega
  have hrest : s.input.drop (16 * n) = [] := List.drop_eq_nil_of_le (by rw [input_length, h])
  simp only [State.sencStream, hq, hrest]
  simp [pad, blocksOfBytes, encBlocks, runBlocks]

theorem sdecStream_none {s : State} {n : Nat} (h : s.inlen.toNat = 16 * n) (i : Instr) (m : Mode) :
    s.sdecStream i m .none =
      s.endStream (bytesOfBlocks (decBlocks m s.schedule (blocksOfBytes s.input n) s.prev).1)
        (decBlocks m s.schedule (blocksOfBytes s.input n) s.prev).2 := by
  have hq : s.inlen.toNat / 16 = n := by omega
  simp only [State.sdecStream, hq]
  rw [if_neg (by omega)]
  rfl

theorem streamCommand_of_start {s u : State} {m : Mode} (hfits : s.inlen.toNat ≤ s.cfg.bufcap)
    (hu : s.streamStart m = .ok u) (i : Instr) (body : State → State) : s.streamCommand i m body = body u := by
  rcases streamCommand_cases s i m body with ⟨hlong, _⟩ | ⟨_, ⟨e, he, _⟩ | ⟨t, ht, hrun⟩⟩
  · omega
  · cases he.symm.trans hu
  · cases ht.symm.trans hu
    exact hrun

theorem endStream_outputs (s : State) {out : List Byte} (h : out.length < 2 ^ 32) (prev : Block) :
    Outputs (s.endStream out prev) out := setOutput_outputs s h

/-- After its setup the command `i` in mode `m` answers what the function `g` makes of `n` blocks of input
(R170, R171). -/
def StreamsMode (i : Instr) (m : Mode) (n : Nat) (g : Block → Block → List Word → Block × Block) (s : State) : Prop :=
  ∀ u : State, s.streamStart m = .ok u →
    let r := runBlocks (g · · u.schedule) (blocksOfBytes u.input n) u.prev
    exec i s = .next (u.endStream (bytesOfBlocks r.1) r.2)

section Streams
variable {s : State} {m : Mode} {n : Nat} (hn : s.inlen.toNat = 16 * n) (hfits : s.inlen.toNat ≤ s.cfg.bufcap)
include hn hfits

theorem streamsMode_senc : StreamsMode (sencInstr m .none) m n (modeEnc m) s := by
  intro u hu
  obtain ⟨_, _, _, _, _, hinlen, _⟩ := streamStart_keepsInputs hu
  rw [exec_senc, State.senc, streamCommand_of_start hfits hu, sencStream_none (by rw [hinlen, hn])]
  rfl

theorem streamsMode_sdec : StreamsMode (sdecInstr m .none) m n (modeDec m) s := by
  intro u hu
  obtain ⟨_, _, _, _, _, hinlen, _⟩ := streamStart_keepsInputs hu
  rw [exec_sdec, State.sdec, streamCommand_of_start hfits hu, sdecStream_none (by rw [hinlen, hn])]
  rfl

end Streams

/-- A stream and its block-level command start from the state that `MINIT` leaves and run the same mode function on
the same blocks. -/
theorem stream_agrees_with_blocks {s : State} {m : Mode} {n : Nat} (hn : s.inlen.toNat = 16 * n)
    (hready : s.StartReady m) {stream block : Instr} {g : Block → Block → List Word → Block × Block}
    (hs : StreamsMode stream m n g s) (hb : RunsMode block m g) :
    ∃ t u r, exec stream s = .next t ∧ exec (minitInstr m) s = .next u ∧
      runPerBlock block (blocksOfBytes s.input n) u = some r ∧
      Outputs t (bytesOfBlocks r.1) ∧ t.prev = r.2.prev ∧ t.chainv = false ∧ r.2.chainv = decide (m = .cbc) := by
  obtain ⟨u, hu, _⟩ := streamStart_ready hready
  obtain ⟨_, ⟨hvalid, _⟩, _, _, hchain, _⟩ := streamStart_ok hu
  obtain ⟨_, _, _, _, _, hinlen, hibuf⟩ := streamStart_keepsInputs hu
  have hinput : u.input = s.input := by rw [State.input, State.input, hinlen, hibuf]
  obtain ⟨v, hrun, hprev, hv⟩ :=
    runPerBlock_of_runsMode hb (blocksOfBytes u.input n) hvalid fun hm => by rw [hchain, hm]; rfl
  rw [← hinput]
  refine ⟨_, u, _, hs u hu, exec_minit_ok hu, hrun, endStream_outputs u ?_ _, hprev.symm, rfl, hv.trans hchain⟩
  rw [bytesOfBlocks_length, runBlocks_length, blocksOfBytes_length]
  omega

/-- Settles O49: in both directions the stream and the block commands run the mode function from `stream_start`. -/
theorem streamEqualsBlockCommands : Obligations.StreamEqualsBlockCommands := by
  intro s m n hn hfits hready
  have enc := stream_agrees_with_blocks hn hready (streamsMode_senc hn hfits) (runsMode_menc m)
  have dec := stream_agrees_with_blocks hn hready (streamsMode_sdec hn hfits) (runsMode_mdec m)
  cases m <;> exact ⟨enc, dec⟩

end Sys2Proof.Machine
end

section
/-! PROOFS. The stream commands `SENC` and `SDEC` (O44, O45, O47, O48; 45_stream_codec.md R170, R171, R173). -/

namespace Sys2Proof.Machine

/-! ### Padding as the streams use it -/

/-- Only None refuses data, when the last block is not full (R132). -/
theorem pad_aligned {p : PadPolicy} {d : List Byte} (h : p = .none → d.length % 16 = 0) : ∃ q, pad p d = .ok q := by
  cases p with
  | pkcs7 => exact ⟨_, rfl⟩
  | zero => exact ⟨_, rfl⟩
  | none => exact ⟨d, if_pos (h rfl)⟩

/-- Where the whole sequence can be padded, so can the bytes after its last full block, to the same blocks (R170). -/
theorem pad_split {p : PadPolicy} {d padded : List Byte} (h : pad p d = .ok padded) :
    ∃ chunk, pad p (d.drop (16 * (d.length / 16))) = .ok chunk ∧ padded = d.take (16 * (d.length / 16)) ++ chunk := by
  cases hc : pad p (d.drop (16 * (d.length / 16))) with
  | ok chunk => exact ⟨chunk, rfl, Except.ok.inj (h.symm.trans (pad_final_chunk rfl hc))⟩
  | error e =>
    obtain ⟨rfl, hrest, _⟩ := pad_error hc
    rw [List.length_drop] at hrest
    simp only [pad] at h
    rw [if_neg (by omega)] at h
    cases h

/-- The blocks of a padded sequence: the full blocks of the sequence, then those of its padded final chunk (R170). -/
theorem blocksOfBytes_take_append {d chunk padded : List Byte} (h : padded = d.take (16 * (d.length / 16)) ++ chunk) :
    blocksOfBytes padded (padded.length / 16) =
      blocksOfBytes d (d.length / 16) ++ blocksOfBytes chunk (chunk.length / 16) := by
  have hfull : (d.take (16 * (d.length / 16))).length = 16 * (d.length / 16) := by rw [List.length_take]; omega
  have hcount : padded.length / 16 = d.length / 16 + chunk.length / 16 := by
    rw [h, List.length_append, hfull]; omega
  have hblocks := blocksOfBytes_append hfull (d.drop (16 * (d.length / 16)))
  rw [List.take_append_drop] at hblocks
  rw [hcount, blocksOfBytes_add, h, blocksOfBytes_append hfull, List.drop_left' hfull, hblocks]

theorem unpadZeros_stripAll_of_pad {d padded : List Byte} (h : pad .zero d = .ok padded)
    (hlast : d.getLast? ≠ some 0x00) : unpadZeros .stripAll padded = d := by
  cases h
  rw [unpadZeros_stripAll_append_zeros, (unpadZeros_stripAll_eq_self_iff d).2 hlast]

/-- What `unpad` makes of a padded sequence: the sequence again, and under Zero what the parameter leaves (R142). -/
theorem unpad_of_pad {p : PadPolicy} {d padded : List Byte} (z : ZeroUnpad) (h : pad p d = .ok padded) :
    unpad z p padded = .ok (if p = .zero then unpadZeros z padded else d) := by
  cases p with
  | pkcs7 => cases h; exact unpadPkcs7_append_replicate d (by omega) (Nat.sub_le _ _)
  | zero => rfl
  | none => exact unpad_none_of_pad h

/-! ### Decryption block by block -/

theorem decBlocks_ecb (w : List Word) (l : List Block) (v : Block) :
    decBlocks .ecb w l v = (l.map (decryptBlock · w), v) := by
  induction l with
  | nil => rfl
  | cons b l ih => simp only [decBlocks_cons, modeDec, ih, List.map_cons]

/-- CBC decryption hands on the last ciphertext block. -/
theorem decBlocks_cbc_snd (w : List Word) (l : List Block) (v : Block) : (decBlocks .cbc w l v).2 = l.getLastD v := by
  induction l generalizing v with
  | nil => rfl
  | cons b l ih => rw [decBlocks_cons, List.getLastD_cons]; exact ih b

/-- What a decryption outputs depends on its start through the IV only, and that in CBC only. -/
theorem decBlocks_startPrev_congr {s u : State} {m : Mode} (h : m = .cbc → u.iv = s.iv) (w : List Word)
    (l : List Block) : (decBlocks m w l (u.startPrev m)).1 = (decBlocks m w l (s.startPrev m)).1 := by
  cases m with
  | ecb => rw [decBlocks_ecb, decBlocks_ecb]
  | cbc => rw [State.startPrev, State.startPrev, h rfl]

/-- The chaining value `SDEC` leaves (R171). -/
theorem decBlocks_startPrev_snd (s : State) (m : Mode) (w : List Word) (l : List Block) :
    (decBlocks m w l (s.startPrev m)).2 = (match m with | .ecb => s.prev | .cbc => l.getLastD s.iv) := by
  cases m with
  | ecb => rw [decBlocks_ecb]; rfl
  | cbc => exact decBlocks_cbc_snd w l s.iv

/-! ### The streams after their setup -/

/-- The stream of `SENC` encrypts the whole input padded (R170). -/
theorem sencStream_padded {s : State} {p : PadPolicy} {padded : List Byte} (h : pad p s.input = .ok padded)
    (i : Instr) (m : Mode) :
    let r := encBlocks m s.schedule (blocksOfBytes padded (padded.length / 16)) s.prev
    s.sencStream i m p = s.endStream (bytesOfBlocks r.1) r.2 := by
  obtain ⟨chunk, hchunk, hpadded⟩ := pad_split h
  rw [blocksOfBytes_take_append hpadded, encBlocks, runBlocks_append, State.sencStream, ← input_length s]
  simp only [hchunk]
  rfl

theorem sencStream_unaligned {s : State} (h : s.inlen.toNat % 16 ≠ 0) (i : Instr) (m : Mode) :
    s.sencStream i m .none = s.streamDataError i m .unalignedData := by
  have hpad : pad .none (s.input.drop (16 * (s.inlen.toNat / 16))) = .error .unalignedData :=
    if_neg (by rw [List.length_drop, input_length]; omega)
  simp only [State.sencStream, hpad]

theorem sdecStream_unaligned {s : State} (h : s.inlen.toNat % 16 ≠ 0) (i : Instr) (m : Mode) (p : PadPolicy) :
    s.sdecStream i m p = s.streamDataError i m .unalignedData := if_pos h

/-- The stream of `SDEC` on full blocks: `unpad` of their decryption decides (R171). -/
theorem sdecStream_aligned {s : State} (h : s.inlen.toNat % 16 = 0) (i : Instr) (m : Mode) (p : PadPolicy) :
    let r := decBlocks m s.schedule (blocksOfBytes s.input (s.inlen.toNat / 16)) s.prev
    s.sdecStream i m p =
      match unpad s.cfg.zeroUnpad p (bytesOfBlocks r.1) with
      | .error e => s.streamDataError i m e
      | .ok out => s.endStream out r.2 := if_neg (by rw [h]; decide)

/-! ### The commands -/

/-- `IVLEN` after a stream started: the IV is consumed in CBC (44_mode_controller.md R151). -/
def State.startIvlen (s : State) (m : Mode) : BitVec 8 :=
  match m with
  | .ecb => s.ivlen
  | .cbc => 0

/-- How a stream that succeeds ends: its output, the last chaining value, the IV consumed, the schedule ensured, the
chain closed, and everything else as it was (R170, R171). -/
def StreamEnds (s t : State) (m : Mode) (out : List Byte) (prev : Block) : Prop :=
  Outputs t out ∧ t.prev = prev ∧ t.ivlen = s.startIvlen m ∧ ScheduleEnsured s t ∧ SameIbuf s t ∧
    t = { s with obuf := t.obuf, outlen := t.outlen, prev := t.prev, ivlen := t.ivlen, chainv := false,
                 rks := t.rks, nk := t.nk, nr := t.nr, rkvalid := t.rkvalid, free := t.free }

/-- What a data error of a stream leaves (60_exceptions.md R195, R196; log entry 13). -/
def StreamFails (s t : State) (i : Instr) (m : Mode) (e : ErrKind) : Prop :=
  ScheduleEnsured s t ∧ SameIbuf s t ∧ t.ivlen = s.startIvlen m ∧ (m = .ecb → t.prev = s.prev) ∧
    t = { s with err := e, errcmd := encode i, outlen := 0, chainv := false, ivlen := t.ivlen, prev := t.prev,
                 obuf := t.obuf, rks := t.rks, nk := t.nk, nr := t.nr, rkvalid := t.rkvalid, free := t.free }

theorem isBuffer_sencInstr (m : Mode) (p : PadPolicy) : isBuffer (sencInstr m p) = true := by
  cases m <;> cases p <;> rfl

theorem isBuffer_sdecInstr (m : Mode) (p : PadPolicy) : isBuffer (sdecInstr m p) = true := by
  cases m <;> cases p <;> rfl

section Started

variable {s u : State} {m : Mode} (hu : s.streamStart m = .ok u)
include hu

/-- The stream reads what the command was given, under the schedule and from the chaining value of its start. -/
theorem streamStart_operands :
    u.input = s.input ∧ u.inlen = s.inlen ∧ u.cfg = s.cfg ∧ u.schedule = s.activeSchedule ∧ u.prev = s.startPrev m := by
  obtain ⟨⟨hcfg, _⟩, _, _, _, _, hinlen, hibuf⟩ := streamStart_keepsInputs hu
  obtain ⟨_, _, hsch, hprev, _⟩ := streamStart_ok hu
  exact ⟨by rw [State.input, State.input, hinlen, hibuf], hinlen, hcfg, hsch, hprev⟩

theorem streamStart_ivlen : u.ivlen = s.startIvlen m := by
  obtain ⟨_, _, _, _, _, hiv, _⟩ := streamStart_ok hu
  cases m <;> exact hiv

theorem streamStart_sameIbuf : SameIbuf s u := by
  obtain ⟨_, _, _, _, _, _, hibuf⟩ := streamStart_keepsInputs hu
  exact fun _ => by rw [hibuf]

theorem streamEnds_endStream {out : List Byte} (hlen : out.length < 2 ^ 32) (prev : Block) :
    StreamEnds s (u.endStream out prev) m out prev := by
  obtain ⟨_, hens, _, _, _, _, frame⟩ := streamStart_ok hu
  have hibuf := streamStart_sameIbuf hu
  have hiv := streamStart_ivlen hu
  exact ⟨endStream_outputs u hlen prev, rfl, hiv, hens, hibuf, congrArg (State.endStream · out prev) frame⟩

theorem streamFails_streamDataError {i : Instr} (hi : isBuffer i = true) (e : ErrKind) :
    StreamFails s (u.streamDataError i m e) i m e := by
  obtain ⟨_, hens, _, hprev, _, _, frame⟩ := streamStart_ok hu
  have hibuf := streamStart_sameIbuf hu
  have hiv := streamStart_ivlen hu
  have hframe := congrArg (State.streamDataError · i m e) frame
  simp only [State.streamDataError, State.raiseIn, hi] at hframe ⊢
  cases m with
  | ecb => exact ⟨hens, hibuf, hiv, fun _ => hprev, hframe⟩
  | cbc => exact ⟨hens, hibuf, hiv, nofun, hframe⟩

end Started

section Commands

variable {s : State} {m : Mode} {p : PadPolicy} (hfits : s.inlen.toNat ≤ s.cfg.bufcap) (hready : s.StartReady m)
include hfits hready

/-- A stream command that can start runs its stream from the state that the start leaves. -/
theorem exec_stream_started :
    ∃ u, s.streamStart m = .ok u ∧
      exec (sencInstr m p) s = .next (u.sencStream (sencInstr m p) m p) ∧
      exec (sdecInstr m p) s = .next (u.sdecStream (sdecInstr m p) m p) := by
  obtain ⟨u, hu, _⟩ := streamStart_ready hready
  refine ⟨u, hu, ?_, ?_⟩
  · rw [exec_senc, State.senc, streamCommand_of_start hfits hu]
  · rw [exec_sdec, State.sdec, streamCommand_of_start hfits hu]

/-- `SENC` of an input that can be padded succeeds with the encryption of the padded input (R170). -/
theorem exec_senc_ends {padded : List Byte} (hpad : pad p s.input = .ok padded) :
    let r := encBlocks m s.activeSchedule (blocksOfBytes padded (padded.length / 16)) (s.startPrev m)
    ∃ t, exec (sencInstr m p) s = .next t ∧ StreamEnds s t m (bytesOfBlocks r.1) r.2 := by
  obtain ⟨u, hu, hexec, _⟩ := exec_stream_started (p := p) hfits hready
  obtain ⟨hinput, _, _, hsch, hprev⟩ := streamStart_operands hu
  rw [sencStream_padded (hinput ▸ hpad), hsch, hprev] at hexec
  refine ⟨_, hexec, streamEnds_endStream hu ?_ _⟩
  obtain ⟨_, _, hlen⟩ := pad_length hpad
  rw [input_length] at hlen
  obtain ⟨k, hk, _⟩ := bufcap_eq s.cfg
  rw [bytesOfBlocks_length, encBlocks_length, blocksOfBytes_length]
  omega

/-- `SDEC` of full blocks ends as `unpad` of their decryption does (R171). -/
theorem exec_sdec_aligned (hal : s.inlen.toNat % 16 = 0) :
    let r := decBlocks m s.activeSchedule (blocksOfBytes s.input (s.inlen.toNat / 16)) (s.startPrev m)
    ∃ t, exec (sdecInstr m p) s = .next t ∧
      (∀ out, unpad s.cfg.zeroUnpad p (bytesOfBlocks r.1) = .ok out → StreamEnds s t m out r.2) ∧
      ∀ e, unpad s.cfg.zeroUnpad p (bytesOfBlocks r.1) = .error e → StreamFails s t (sdecInstr m p) m e := by
  obtain ⟨u, hu, _, hexec⟩ := exec_stream_started (p := p) hfits hready
  obtain ⟨hinput, hinlen, hcfg, hsch, hprev⟩ := streamStart_operands hu
  rw [sdecStream_aligned (by rwa [hinlen]), hinput, hinlen, hcfg, hsch, hprev] at hexec
  intro r
  refine ⟨_, hexec, fun out hout => ?ok, fun e he => ?error⟩
  case ok =>
    rw [hout]
    refine streamEnds_endStream hu ?_ _
    have hlen := unpad_length hout
    rw [bytesOfBlocks_length, decBlocks_length, blocksOfBytes_length] at hlen
    have := s.inlen.isLt
    omega
  case error =>
    rw [he]
    exact streamFails_streamDataError hu (isBuffer_sdecInstr m p) e

end Commands

/-- Settles O44: padding the final chunk of the stream pads the whole input, and the chaining value runs through. -/
theorem sencEncryptsPaddedInput : Obligations.SencEncryptsPaddedInput := by
  intro s m p hfits hready hal
  obtain ⟨padded, hpad⟩ : ∃ padded, pad p s.input = .ok padded := pad_aligned fun hp => by rw [input_length, hal hp]
  obtain ⟨t, ht, hout, hprev, hiv, frame⟩ := exec_senc_ends hfits hready hpad
  obtain ⟨haligned, _⟩ := pad_length hpad
  refine ⟨padded, t, hpad, ht, hout, hprev, ?_, hiv, frame⟩
  rw [hout.1, bytesOfBlocks_length, encBlocks_length, blocksOfBytes_length]
  omega

/-- Settles O45: what the decrypted blocks are said to be is what `unpad` accepts, and CBC hands on the ciphertext. -/
theorem sdecDecryptsInput : Obligations.SdecDecryptsInput := by
  intro s m p n blocks plain out hfits hready hal hplain
  have hunpad : unpad s.cfg.zeroUnpad p plain = .ok out := by
    cases p with
    | pkcs7 => exact unpadPkcs7_eq_ok_iff.2 hplain
    | zero => exact congrArg Except.ok hplain.symm
    | none => exact congrArg Except.ok hplain.symm
  obtain ⟨t, ht, hok, _⟩ := exec_sdec_aligned (p := p) hfits hready hal
  obtain ⟨hout, hprev, frame⟩ := hok out hunpad
  exact ⟨t, ht, hout, hprev.trans (decBlocks_startPrev_snd s m _ blocks), frame⟩

/-- Settles O47: a last chunk that is not full fails `pad` under None and the length check of `SDEC`, and bad padding
fails `unpad`, each in the stream that started. -/
theorem streamDataErrorsLeave : Obligations.StreamDataErrorsLeave := by
  intro s m p hfits hready plain failed
  refine ⟨fun hrest => ⟨?senc, ?sdec⟩, fun hal hbad => ?padding⟩
  case senc =>
    obtain ⟨u, hu, hexec, _⟩ := exec_stream_started (p := .none) hfits hready
    obtain ⟨_, hinlen, _⟩ := streamStart_operands hu
    rw [sencStream_unaligned (by rwa [hinlen])] at hexec
    exact ⟨_, hexec, streamFails_streamDataError hu (isBuffer_sencInstr m .none) _⟩
  case sdec =>
    obtain ⟨u, hu, _, hexec⟩ := exec_stream_started (p := p) hfits hready
    obtain ⟨_, hinlen, _⟩ := streamStart_operands hu
    rw [sdecStream_unaligned (by rwa [hinlen])] at hexec
    exact ⟨_, hexec, streamFails_streamDataError hu (isBuffer_sdecInstr m p) _⟩
  case padding =>
    obtain ⟨t, ht, _, herror⟩ := exec_sdec_aligned (p := .pkcs7) hfits hready hal
    have hunpad : unpadPkcs7 plain = .error .invalidPadding :=
      unpadPkcs7_eq_error fun out hout => hbad ⟨out, unpadPkcs7_eq_ok hout⟩
    exact ⟨t, ht, herror _ hunpad⟩

/-! ### Round trip -/

/-- A coherent schedule is that of a key of legal length (10_state.md R19). -/
theorem keyReady_iff_of_coherent {s : State} (h : s.ScheduleCoherent) :
    s.KeyReady ↔ keyLengthLegal s.klen.toNat = true :=
  ⟨fun hk => hk.elim (fun hv => (h.1 hv).1) id, .inr⟩

/-- A command uses the expansion of the key, be it expanded before or not. -/
theorem activeSchedule_of_coherent {s : State} (h : s.ScheduleCoherent) : s.activeSchedule = s.expansion := by
  cases hv : s.rkvalid with
  | false => exact if_neg (by rw [hv]; decide)
  | true =>
    obtain ⟨_, _, _, hexp⟩ := h.1 hv
    rw [State.activeSchedule, if_pos hv, State.expansion, hexp]

theorem expansion_congr {s u : State} (hkey : u.key = s.key) (hklen : u.klen = s.klen) : u.expansion = s.expansion := by
  rw [State.expansion, State.expansion, State.keyBytes, State.keyBytes, hkey, hklen]

theorem readBytes_of_outputs {t : State} {out : List Byte} (h : Outputs t out) :
    t.obuf.readBytes 0 t.outlen.toNat = out := by
  rw [h.1, h.2]

/-- Full blocks encrypted, read back from the bytes of their ciphertext and decrypted. -/
theorem bytesOfBlocks_decBlocks_encBlocks {d : List Byte} (h : d.length % 16 = 0) (m : Mode) (w : List Word) (v : Block) :
    let cipher := bytesOfBlocks (encBlocks m w (blocksOfBytes d (d.length / 16)) v).1
    bytesOfBlocks (decBlocks m w (blocksOfBytes cipher (cipher.length / 16)) v).1 = d := by
  intro cipher
  rw [bytesOfBlocks_length, Nat.mul_div_cancel_left _ (by decide), blocksOfBytes_bytesOfBlocks, decBlocks_encBlocks]
  exact bytesOfBlocks_blocksOfBytes (by omega)

/-- Settles O48: the second stream has the same schedule and start as the first and reads the blocks it wrote, so its
decryption is the padded input, from which `unpad` takes the padding. -/
theorem streamRoundTrip : Obligations.StreamRoundTrip := by
  intro s t u m p padded hs hfits hready hpad ht hu hcfg hkey hklen hiv hinlen hufits hinput
  obtain ⟨t', ht', hcipher, _⟩ := exec_senc_ends hfits hready hpad
  cases ht.symm.trans ht'
  replace hinput := hinput.trans (readBytes_of_outputs hcipher)
  obtain ⟨hpadded, _⟩ := pad_length hpad
  have hsch : u.activeSchedule = s.activeSchedule := by
    rw [activeSchedule_of_coherent hu, activeSchedule_of_coherent hs, expansion_congr hkey hklen]
  have hplain : bytesOfBlocks (decBlocks m u.activeSchedule (blocksOfBytes u.input (u.inlen.toNat / 16))
      (u.startPrev m)).1 = padded := by
    rw [← input_length u, hinput, hsch, decBlocks_startPrev_congr (s := s) fun hm => (hiv hm).2]
    exact bytesOfBlocks_decBlocks_encBlocks hpadded m s.activeSchedule (s.startPrev m)
  have hstart : u.StartReady m :=
    ⟨(keyReady_iff_of_coherent hu).2 (hklen ▸ (keyReady_iff_of_coherent hs).1 hready.1), fun hm => (hiv hm).1⟩
  have hal : u.inlen.toNat % 16 = 0 := by
    rw [← input_length u, hinput, bytesOfBlocks_length]
    exact Nat.mul_mod_right ..
  obtain ⟨v, hv, hok, _⟩ := exec_sdec_aligned (p := p) hufits hstart hal
  rw [hplain, hcfg] at hok
  obtain ⟨hout, _, _, _, _, frame⟩ := hok _ (unpad_of_pad s.cfg.zeroUnpad hpad)
  refine ⟨v, hv, (congrArg State.err frame :), fun hp => ?same, fun hp => ?zero, fun hp hz hlast => ?stripAll⟩
  case same => rwa [if_neg hp] at hout
  case zero => rwa [if_pos hp] at hout
  case stripAll =>
    subst hp
    rwa [if_pos rfl, hz, unpadZeros_stripAll_of_pad hpad hlast] at hout

end Sys2Proof.Machine
end

section
/-! PROOFS. The system commands and the reset event (O21, O22). -/

namespace Sys2Proof.Machine

@[simp] theorem exec_clrerr (s : State) : exec .clrerr s = .next s.acknowledge := rfl

@[simp] theorem exec_rst (s : State) : exec .rst s = .next s.resetAll := rfl

theorem step_reset {s : State} {rest : List HostMove} (hs : s.host = .reset :: rest) :
    step s = .next { s with host := rest }.resetAll := by
  rw [step, hostStep, hs]
  rfl

/-- Settles O22: the command is `acknowledge`, which writes these two registers only. -/
theorem clrerrAcknowledges : Obligations.ClrerrAcknowledges :=
  exec_clrerr

/-- Settles O21: the command and the reset event are both `resetAll`, and the error state does not hold `RST` back. -/
theorem rstResets : Obligations.RstResets := by
  intro s
  refine ⟨⟨s.resetAll, exec_rst s, ?values⟩, fun rest hs => ?command, fun rest hs => ?event⟩
  case values => simp
  case command =>
    rw [step_cmdWrite hs]
    exact cmdWrite_of_decode (decode_encode .rst) (.inr (.inr rfl))
  case event => rw [step_reset hs, exec_rst]

end Sys2Proof.Machine
end

section
/-! PROOFS. The error record: what raises an error, what it leaves, and what clears it (O9, O19, O46, O50, O51). -/

namespace Sys2Proof.Machine

/-! ### The record -/

/-- Settles O19: a field of `STATUS` is what stands above the fields below it and below those above it. -/
theorem statusFieldsStandAsListed : Obligations.StatusFieldsStandAsListed := by
  refine ⟨rfl, rfl, rfl, rfl, rfl, rfl, rfl, rfl, fun s => ?_⟩
  simp (disch := omega) only [State.portRead, State.status, BitVec.extractLsb'_append_eq_of_le,
    BitVec.extractLsb'_append_eq_of_add_le, BitVec.getLsbD_append]
  simp

/-- Settles O9: of what a step can do, only the reset event, `CLRERR` and `RST` write the record when an error is there;
every other word is held back. -/
theorem recordedErrorIsSticky : Obligations.RecordedErrorIsSticky := by
  intro s t hs h
  cases stepEffect_of_step h with
  | idle | hostRead | heldBack => exact .inl ⟨rfl, rfl⟩
  | portWritten => rw [portWrite_frame]; exact .inl ⟨rfl, rfl⟩
  | illegalWord _ _ _ he => exact absurd he hs
  | resetEvent rest hr => exact .inr (.inl ⟨rest, hr⟩)
  | commandRun c rest i _ hc hd hgate =>
    obtain rfl := eq_encode_of_decode hd
    refine .inr (.inr ⟨encode i, rest, hc, ?_⟩)
    rcases hgate with he | rfl | rfl
    · exact absurd he hs
    · exact .inl rfl
    · exact .inr rfl

/-- The buffer commands are those with `OPC` 0x07 to 0x0A (10_state.md R22, R23). -/
theorem isBuffer_eq_decide (i : Instr) : isBuffer i = decide (i.fields.opc.toNat ∈ [0x07, 0x08, 0x09, 0x0A]) := by
  cases i <;> rfl

/-- An error raised by a buffer command on the state before it (60_exceptions.md R195). -/
theorem raiseIn_of_isBuffer {i : Instr} (hi : isBuffer i = true) (s : State) (e : ErrKind) :
    s.raiseIn i e = { s with err := e, errcmd := encode i, outlen := 0 } := by
  rw [State.raiseIn, hi]
  rfl

/-! ### The setup errors of the streams -/

theorem isBuffer_stream {i : Instr} {m : Mode} (hi : ∃ p, i = sencInstr m p ∨ i = sdecInstr m p) :
    isBuffer i = true := by
  obtain ⟨p, rfl | rfl⟩ := hi
  · exact isBuffer_sencInstr m p
  · exact isBuffer_sdecInstr m p

/-- `SENC` and `SDEC` have their setup in common (45_stream_codec.md R170, R171). -/
theorem exec_stream {i : Instr} {m : Mode} (hi : ∃ p, i = sencInstr m p ∨ i = sdecInstr m p) (s : State) :
    ∃ body, exec i s = .next (s.streamCommand i m body) := by
  obtain ⟨p, rfl | rfl⟩ := hi
  · exact ⟨_, exec_senc s m p⟩
  · exact ⟨_, exec_sdec s m p⟩

section StreamSetup

variable {s : State} {i : Instr} {m : Mode} (hi : ∃ p, i = sencInstr m p ∨ i = sdecInstr m p)
include hi

theorem exec_stream_tooLong (hlong : s.cfg.bufcap < s.inlen.toNat) :
    exec i s = .next { s with err := .ioError, errcmd := encode i, outlen := 0 } := by
  obtain ⟨body, hexec⟩ := exec_stream hi s
  rcases streamCommand_cases s i m body with ⟨_, hrun⟩ | ⟨hfits, _⟩
  · rw [hexec, hrun, raiseIn_of_isBuffer (isBuffer_stream hi)]
  · omega

theorem exec_stream_notStarted (hfits : s.inlen.toNat ≤ s.cfg.bufcap) {e : ErrKind} (he : s.streamStart m = .error e) :
    exec i s = .next { s with err := e, errcmd := encode i, outlen := 0 } := by
  obtain ⟨body, hexec⟩ := exec_stream hi s
  rcases streamCommand_cases s i m body with ⟨hlong, _⟩ | ⟨_, ⟨e', he', hrun⟩ | ⟨u, hu, _⟩⟩
  · omega
  · cases he.symm.trans he'
    rw [hexec, hrun, raiseIn_of_isBuffer (isBuffer_stream hi)]
  · cases he.symm.trans hu

end StreamSetup

/-- Settles O46: the length of the input is checked first, and the other errors are those of `stream_start`, in its order. -/
theorem streamSetupErrorsInOrder : Obligations.StreamSetupErrorsInOrder := by
  intro s m p i hi failed
  have hstream : ∃ p, i = sencInstr m p ∨ i = sdecInstr m p := ⟨p, hi⟩
  refine ⟨exec_stream_tooLong hstream, fun hfits hk => ?notReady, fun hfits hk hm h0 => ?missing,
    fun hfits hk hm h0 h16 => ?size⟩
  case notReady => exact exec_stream_notStarted hstream hfits (streamStart_notReady hk m)
  case missing => subst hm; exact exec_stream_notStarted hstream hfits (streamStart_cbc_missingIV hk h0)
  case size => subst hm; exact exec_stream_notStarted hstream hfits (streamStart_cbc_invalidIVSize hk h0 h16)

/-! ### What a raised error leaves -/

/-- The ways a command leaves an error that was not there before (60_exceptions.md R195, R196). -/
inductive Raised (s : State) (i : Instr) : State → Prop where
  | setup (e : ErrKind) (he : e.isSetup = true) : Raised s i (s.raiseIn i e)
  | padData (hi : i.fields.opc.toNat ∈ [0x07, 0x08]) (e : ErrKind) (he : e.isData = true) :
      Raised s i (s.padDataError i e)
  | streamData (m : Mode) (hi : ∃ p, i = sencInstr m p ∨ i = sdecInstr m p) (u : State)
      (hu : s.streamStart m = .ok u) (e : ErrKind) (he : e.isData = true) : Raised s i (u.streamDataError i m e)

theorem ensureSchedule_err {s u : State} (h : s.ensureSchedule = .ok u) : u.err = s.err :=
  ensureSchedule_keeps (P := fun u => u.err = s.err) (fun _ _ h => h) rfl h

theorem streamStart_err {s u : State} {m : Mode} (h : s.streamStart m = .ok u) : u.err = s.err :=
  streamStart_keeps (P := fun u => u.err = s.err) (fun _ _ h => h) (fun _ h => h) (fun _ h => h) rfl h

/-- A command that ends otherwise leaves `ERR` as it was, or clears it. -/
theorem raised_of_exec {s t : State} {i : Instr} (hs : s.err = .noError) (h : exec i s = .next t)
    (ht : t.err ≠ .noError) : Raised s i t := by
  cases effect_of_exec h with
  | setupError e he => exact .setup e he
  | padDataError hi e he => exact .padData hi e he
  | streamDataError m hi u hu e he => exact .streamData m hi u hu e he
  | keyExpanded | padDone => exact absurd hs ht
  | blockDone _ _ _ hu | chainDone _ _ _ _ hu => exact absurd ((ensureSchedule_err hu).trans hs) ht
  | streamStarted _ _ _ hu | streamDone _ _ _ hu => exact absurd ((streamStart_err hu).trans hs) ht
  | acknowledged | reset => exact absurd rfl ht

theorem ErrKind.not_isSetup_of_isData {e : ErrKind} (h : e.isData = true) : ¬ e.isSetup = true := by
  cases e with
  | unalignedData | invalidPadding => exact Bool.false_ne_true
  | _ => cases h

theorem failsOnData_padDataError {i : Instr} (hi : i.fields.opc.toNat ∈ [0x07, 0x08]) (s : State) (e : ErrKind) :
    FailsOnData s (s.padDataError i e) i e :=
  have hbuffer : isBuffer i = true := by
    rw [isBuffer_eq_decide]
    have wider : [0x07, 0x08] ⊆ [0x07, 0x08, 0x09, 0x0A] := by decide
    exact decide_eq_true (wider hi)
  raiseIn_of_isBuffer hbuffer s.forgetOutput e

/-- Settles O50: a setup error is raised on the state before the command; a data error is another kind of error. -/
theorem raisedErrorIsRecorded : Obligations.RaisedErrorIsRecorded := by
  intro i s t hs h ht buffer
  have hbuffer : isBuffer i = buffer := isBuffer_eq_decide i
  cases raised_of_exec hs h ht with
  | setup e =>
    rw [State.raiseIn, hbuffer]
    exact ⟨rfl, fun hb => if_pos hb, fun _ => rfl⟩
  | padData hi e he =>
    have frame : FailsOnData s _ i e := failsOnData_padDataError hi s e
    rw [frame]
    exact ⟨rfl, fun _ => rfl, fun hsetup => absurd hsetup (ErrKind.not_isSetup_of_isData he)⟩
  | streamData m hi u hu e he =>
    obtain ⟨_, _, _, _, frame⟩ := streamFails_streamDataError hu (isBuffer_stream hi) e
    rw [frame]
    exact ⟨rfl, fun _ => rfl, fun hsetup => absurd hsetup (ErrKind.not_isSetup_of_isData he)⟩

/-- The mode field of a stream command's word (30_encoding.md R51). -/
theorem stream_mode {i : Instr} {m : Mode} (hi : ∃ p, i = sencInstr m p ∨ i = sdecInstr m p) :
    i.fields.mode = m.code := by
  obtain ⟨p, rfl | rfl⟩ := hi <;> cases m <;> cases p <;> rfl

/-- A stream that fails has consumed the IV in CBC, and in ECB keeps it and `PREV` (log entry 13). -/
theorem StreamFails.ivlen_prev {s t : State} {i : Instr} {m : Mode} {e : ErrKind} (h : StreamFails s t i m e)
    (hi : ∃ p, i = sencInstr m p ∨ i = sdecInstr m p) :
    (i.fields.mode = 1 → t.ivlen = 0) ∧ (i.fields.mode = 0 → t.ivlen = s.ivlen ∧ t.prev = s.prev) := by
  obtain ⟨_, _, hiv, hprev, _⟩ := h
  rw [stream_mode hi]
  cases m with
  | ecb => exact ⟨nofun, fun _ => ⟨hiv, hprev rfl⟩⟩
  | cbc => exact ⟨fun _ => hiv, nofun⟩

/-- Settles O51: a setup error is another kind of error; `PAD` and `UNPAD` lose OBUF only, and a stream leaves what
its start left, with the chain closed. -/
theorem dataErrorKeepsTheRest : Obligations.DataErrorKeepsTheRest := by
  intro i s t hs h hdata opc
  cases raised_of_exec hs h (ErrKind.ne_noError_of_isData hdata) with
  | setup e he => exact absurd he (ErrKind.not_isSetup_of_isData hdata)
  | padData hi e =>
    have hopc : opc = 0x07 ∨ opc = 0x08 := by simpa using hi
    have frame : FailsOnData s _ i e := failsOnData_padDataError hi s e
    refine ⟨?_, rfl, fun _ => rfl, frame, by omega, fun _ => ⟨hopc, rfl, rfl, rfl, rfl, rfl, rfl, rfl⟩⟩
    rw [frame]
  | streamData m hi u hu e =>
    have hopc : opc = 0x09 ∨ opc = 0x0A := (stream_opc hi).imp (congrArg BitVec.toNat) (congrArg BitVec.toNat)
    have fails := streamFails_streamDataError hu (isBuffer_stream hi) e
    have hmode := fails.ivlen_prev hi
    obtain ⟨hens, hibuf, _, _, frame⟩ := fails
    refine ⟨?_, ?_, hibuf, ?_, fun _ => ⟨?_, hens.1, hens, hmode⟩, by omega⟩ <;> rw [frame]

end Sys2Proof.Machine
end

section
/-! PROOFS. What a step always does: it answers, runs the command a decoded word stands for, and does nothing when the
host asks nothing (O5, O7, O8). -/

namespace Sys2Proof.Machine

theorem exec_goesOn (i : Instr) (s : State) : GoesOn (exec i s) := by
  obtain ⟨t, ht, _⟩ := exec_effect i s
  exact ⟨t, ht⟩

/-- A write to `CMD` runs a command, records an error or is held back (30_encoding.md R54). -/
theorem cmdWrite_goesOn (c : Reg32) (s : State) : GoesOn (cmdWrite c s) := by
  rcases cmdWrite_cases c s with ⟨i, _, _, hrun⟩ | ⟨_, _, hillegal⟩ | ⟨_, _, _, hheld⟩
  · rw [hrun]
    exact exec_goesOn i s
  · exact ⟨_, hillegal⟩
  · exact ⟨_, hheld⟩

theorem step_goesOn (s : State) : GoesOn (step s) := by
  rcases step_cases (s := s) rfl with ⟨_, hidle⟩ | ⟨_, _, _, _, hread⟩ | ⟨c, rest, _, hcmd⟩ |
    ⟨_, _, _, _, _, _, hwrite⟩ | ⟨_, _, hreset⟩
  · exact ⟨_, hidle⟩
  · exact ⟨_, hread⟩
  · rw [hcmd]
    exact cmdWrite_goesOn c { s with host := rest }
  · exact ⟨_, hwrite⟩
  · exact ⟨_, hreset⟩

/-- Settles O7: every command ends in one of its effects, and every move of the host in a command or a next state. -/
theorem noStepStops : Obligations.NoStepStops := ⟨step_goesOn, exec_goesOn⟩

/-- With no error recorded the command of a decoded word runs on the state in which the move is taken
(30_encoding.md R54). -/
theorem step_of_decode {s : State} {c : Reg32} {rest : List HostMove} {i : Instr}
    (hs : s.host = .write 4 0x000 c :: rest) (he : s.err = .noError) (hd : decode c = .ok i) :
    step s = exec i { s with host := rest } :=
  (step_cmdWrite hs).trans (cmdWrite_of_decode hd (.inl he))

/-- `withFetchWord` puts the write of the whole word to `CMD` before every other move (log entry 10). -/
theorem withFetchWord_host (s : State) (c : Reg32) :
    (s.withFetchWord 32 c.toNat).host = .write 4 0x000 c :: s.host := by
  have hword : BitVec.ofNat 32 (c.toNat % 2 ^ 32) = c := by
    rw [Nat.mod_eq_of_lt c.isLt, BitVec.ofNat_toNat, BitVec.setWidth_eq]
  rw [State.withFetchWord, commandMove, hword]

/-- Settles O5: the move that `withFetchWord` places is a write of the command's own word, which decodes to it. -/
theorem stepRunsDecodedCommand : Obligations.StepRunsDecodedCommand :=
  ⟨fun _ _ _ _ => step_of_decode, fun s i he => step_of_decode (withFetchWord_host s (encode i)) he (decode_encode i)⟩

/-- Settles O8: the list of pending moves is all a step looks at before it acts, and an empty list leaves the state. -/
theorem idleStepChangesNothing : Obligations.IdleStepChangesNothing := by
  intro s hs
  rw [step, hostStep, hs]

end Sys2Proof.Machine
end

section
/-! PROOFS. Words of each family and of each illegality, as the decoder takes them (O1). -/

namespace Sys2Proof.Machine

/-- A word whose fields meet a condition of 30_encoding.md R55 is rejected by the name of the first one it meets. -/
theorem decode_of_not_wellFormed {c : Reg32} (h : ¬ (fieldsOf c).wellFormed = true) :
    decode c = .error (illegalReason (fieldsOf c)) := by
  cases hfound : legalWords.lookup c with
  | none => rw [decode, hfound]
  | some i =>
    have hd : decode c = .ok i := by rw [decode, hfound]
    exact absurd (exists_decode_iff_wellFormed.1 ⟨i, hd⟩) h

/-- Settles O1: each legal word is the encoding of its command, and each illegal one has fields that are not
well-formed. -/
theorem specWordsDecode : Obligations.SpecWordsDecode :=
  ⟨decode_encode .kexp, decode_encode .encb, decode_encode .minitCbc, decode_encode .mencCbc, decode_encode .mdecCbc,
    decode_encode .padZero, decode_encode .unpadNone, decode_encode .sencCbcZero, decode_encode .sdecCbcNone,
    decode_encode .clrerr, decode_of_not_wellFormed (by decide), decode_of_not_wellFormed (by decide),
    decode_of_not_wellFormed (by decide), decode_of_not_wellFormed (by decide), decode_of_not_wellFormed (by decide),
    decode_of_not_wellFormed (by decide)⟩

end Sys2Proof.Machine
end

section
/-! PROOFS. The state after reset (O20, O59). -/

namespace Sys2Proof.Machine

/-- Settles O20: these are the control fields of `State.reset`. -/
theorem resetValuesAreAsListed : Obligations.ResetValuesAreAsListed :=
  ⟨rfl, rfl, rfl, rfl, rfl, rfl, rfl, rfl, rfl, rfl⟩

/-- Settles O59: at reset there is no schedule, no byte of a buffer is listed, and `OUTLEN` and `ERRCMD` are 0. -/
theorem resetMeetsInvariants : Obligations.ResetMeetsInvariants := by
  obtain ⟨_, hvalid, _, hnk, hnr, _, _, _, _, herrcmd⟩ := resetValuesAreAsListed
  obtain ⟨hibuf, hobuf⟩ := reset_buffers_wf
  exact ⟨scheduleCoherent_of_none hvalid hnk hnr, ⟨hibuf, hobuf, nofun, nofun⟩, Nat.zero_le _, fun _ => herrcmd⟩

end Sys2Proof.Machine
end
